-- ==== Sys2Proof/Word.lean ====
section
/-! DEFINITION. The word types of the block (10_state.md R33: every register is 32 bits wide). -/

namespace Sys2Proof

/-- A register or command word (00_scope.md R10). -/
abbrev Word := BitVec 32

/-- A 16-bit register field or a line-buffer entry (10_state.md R38, R43, R45; 20_memory.md R82). -/
abbrev Half := BitVec 16

/-- A byte of the destination memory (20_memory.md R84). -/
abbrev Byte := BitVec 8

end Sys2Proof
end

