-- ==== Sys2Proof/Syntax.lean ====
section
/-! DEFINITION. The commands of the block as syntax: one constructor of Instr per row of
spec/opcode_table.json. -/

namespace Sys2Proof

/-- The two filter kinds (00_scope.md R14): LR is K = 0, HR is K = 1. -/
inductive Kind where
  | lr
  | hr
  deriving DecidableEq, Repr, Inhabited

/-- The five presets in the order of their codes 0 to 4 (30_encoding.md R118). -/
inductive Preset where
  | off
  | composite
  | svideo
  | rgb
  | custom
  deriving DecidableEq, Repr, Inhabited

/-- The six commands (30_encoding.md R112). `w` is the source width W and `line` the line index
LINE; both are counts, held to their field widths by `Instr.wf`. -/
inductive Instr where
  | nop
  | finit (k : Kind) (p : Preset)
  | ffree (k : Kind)
  | outw (k : Kind) (w : Nat)
  | blit (k : Kind) (w : Nat) (line : Nat)
  | resolve
  deriving DecidableEq, Repr, Inhabited

end Sys2Proof
end

