-- ==== Sys2Proof/WellFormed.lean ====
section
/-! DEFINITION. Which commands an encoding can carry: the ranges of the operand fields
(30_encoding.md R120). -/

namespace Sys2Proof

/-- `W` is an 11-bit field, 0..2047 (30_encoding.md R120). -/
def widthFits (w : Nat) : Bool := decide (w ≤ 2047)

/-- `LINE` is a 10-bit field, 0..1023 (30_encoding.md R120). -/
def lineFits (line : Nat) : Bool := decide (line ≤ 1023)

/-- The operands of the command fit their fields. -/
def Instr.wf : Instr → Bool
  | .nop => true
  | .finit _ _ => true
  | .ffree _ => true
  | .outw _ w => widthFits w
  | .blit _ w line => widthFits w && lineFits line
  | .resolve => true

end Sys2Proof
end

