-- ==== Sys2Proof/Decode.lean ====
section
/-! DEFINITION. The decoder of command words, total and rejecting by name, and the encoder, both
written from the formats of 30_encoding.md R111, R112, R118 and R120. -/

namespace Sys2Proof

/-- `v[hi:lo]` as an unsigned integer (00_scope.md R10). -/
def bits (v : Word) (hi lo : Nat) : Nat := v.toNat / 2 ^ lo % 2 ^ (hi + 1 - lo)

/-- Why a word is no command (30_encoding.md R121 (a), (b), (c)). -/
inductive Illegal where
  | opcode
  | reservedBit
  | preset
  deriving DecidableEq, Repr

/-- `K`: 0 selects LR, 1 selects HR (30_encoding.md R120). -/
def kindOfBit (b : Nat) : Kind := if b = 0 then .lr else .hr

/-- The bit of a kind (30_encoding.md R120). -/
def kindBit : Kind → Nat
  | .lr => 0
  | .hr => 1

/-- The preset of a code; 5 to 7 are none (30_encoding.md R118). -/
def presetOfCode : Nat → Option Preset
  | 0 => some .off
  | 1 => some .composite
  | 2 => some .svideo
  | 3 => some .rgb
  | 4 => some .custom
  | _ => none

/-- The code of a preset (30_encoding.md R118). -/
def presetCode : Preset → Nat
  | .off => 0
  | .composite => 1
  | .svideo => 2
  | .rgb => 3
  | .custom => 4

/-- `f` if the reserved field is 0, else the word is illegal (30_encoding.md R111, R121 (b)). -/
def ifReservedZero (field : Nat) (f : Except Illegal Instr) : Except Illegal Instr :=
  if field = 0 then f else .error .reservedBit

/-- The command a word encodes (30_encoding.md R112), or why it is illegal (R121). -/
def decode (c : Word) : Except Illegal Instr :=
  match bits c 31 28 with
  | 0 => ifReservedZero (bits c 27 0) (.ok .nop)
  | 1 => ifReservedZero (bits c 26 3)
      (match presetOfCode (bits c 2 0) with
        | some p => .ok (.finit (kindOfBit (bits c 27 27)) p)
        | none => .error .preset)
  | 2 => ifReservedZero (bits c 26 0) (.ok (.ffree (kindOfBit (bits c 27 27))))
  | 3 => ifReservedZero (bits c 15 0) (.ok (.outw (kindOfBit (bits c 27 27)) (bits c 26 16)))
  | 4 => ifReservedZero (bits c 15 10)
      (.ok (.blit (kindOfBit (bits c 27 27)) (bits c 26 16) (bits c 9 0)))
  | 5 => ifReservedZero (bits c 27 0) (.ok .resolve)
  | _ => .error .opcode

/-- The word of a command: opcode in 31:28, K at 27, W at 26:16, LINE at 9:0, PRESET at 2:0, every
other bit 0 (30_encoding.md R111, R112). -/
def encode : Instr → Word
  | .nop => 0x00000000
  | .finit k p => BitVec.ofNat 32 (0x10000000 + kindBit k * 2 ^ 27 + presetCode p)
  | .ffree k => BitVec.ofNat 32 (0x20000000 + kindBit k * 2 ^ 27)
  | .outw k w => BitVec.ofNat 32 (0x30000000 + kindBit k * 2 ^ 27 + w * 2 ^ 16)
  | .blit k w line => BitVec.ofNat 32 (0x40000000 + kindBit k * 2 ^ 27 + w * 2 ^ 16 + line)
  | .resolve => 0x50000000

/-- The word a table row's bits stand for: the low `nbits` bits of `w`, the rest 0. A command word
is written by value (20_memory.md R85), so no byte order enters. Log 18. -/
def tableWord (nbits w : Nat) : Word := BitVec.ofNat 32 (w % 2 ^ nbits)

/-- The command the decoder reads from an opcode-table word. -/
def decodeTableWord (nbits w : Nat) : Option Instr :=
  match decode (tableWord nbits w) with
  | .ok i => some i
  | .error _ => none

end Sys2Proof
end

