-- ==== Sys2Proof/Config.lean ====
section
/-! DEFINITION. What an implementation fixes (00_scope.md R7, R9): the numeric parameters as plain
data, the open functions as uninterpreted constants, and the free values. -/

namespace Sys2Proof

/-- Five of something, one per knob, in the index order of 10_state.md R38. -/
structure Knobs (α : Type) where
  sharpness  : α
  resolution : α
  artifacts  : α
  fringing   : α
  bleed      : α
  deriving DecidableEq, Repr, Inhabited

/-- The parameters of one filter kind (00_scope.md R7). `lead` lists LEAD(k, p) for
p = 0 .. OUT(k)-1. -/
structure KindParams where
  inChunk        : Nat
  outChunk       : Nat
  taps           : Nat
  lead           : List Nat
  sampleBits     : Nat
  rgbFallthrough : Bool
  deriving DecidableEq, Repr, Inhabited

/-- The constraints 00_scope.md R7 sets on the parameters of one kind, LEAD's of R9 (a) among
them: it has OUT(k) entries, starts at 0, never decreases and takes every value below IN(k). -/
abbrev KindParams.Valid (q : KindParams) : Prop :=
  1 ≤ q.inChunk ∧ q.inChunk ≤ q.outChunk ∧ q.outChunk ≤ 16 ∧ q.inChunk ≤ q.taps ∧
  q.lead.length = q.outChunk ∧ q.lead.head? = some 0 ∧ q.lead.Pairwise (· ≤ ·) ∧
  (∀ v ∈ q.lead, v < q.inChunk) ∧ (∀ v ∈ List.range q.inChunk, v ∈ q.lead) ∧
  (q.sampleBits = 8 ∨ q.sampleBits = 16)

/-- The four calibrated ratios XS_CAL(b, t) (00_scope.md R7, 41_scaler_resolve.md R156). -/
structure XsCal where
  simNarrow : Nat
  simWide   : Nat
  hwbNarrow : Nat
  hwbWide   : Nat
  deriving DecidableEq, Repr, Inhabited

/-- The numeric parameters of 00_scope.md R7. They are a parameter of every step and no step
writes them (10_state.md R32); `Machine.State.cfg` carries them (log 1). -/
structure Config where
  lr          : KindParams
  hr          : KindParams
  texelBytes  : Nat
  dstMemBytes : Nat
  kmin        : Knobs Int
  kmax        : Knobs Int
  xsCal       : XsCal
  ycal60      : Nat
  ycal50      : Nat
  tol         : Nat
  deriving DecidableEq, Repr, Inhabited

/-- One knob's clamp range: KMIN(i) ≤ KMAX(i) (00_scope.md R7), and some signed 16-bit value lies
in it or is clamped onto one, so that a clamped knob is a signed 16-bit value as 10_state.md R40
says. DEDUCED, log 7. -/
abbrev KnobRangeValid (lo hi : Int) : Prop := lo ≤ hi ∧ lo ≤ 32767 ∧ -32768 ≤ hi

/-- The constraints of 00_scope.md R7 and R9 (a), (b) on the numeric parameters. -/
abbrev Config.Valid (c : Config) : Prop :=
  c.lr.Valid ∧ c.hr.Valid ∧
  (c.texelBytes = 2 ∨ c.texelBytes = 4) ∧
  1 ≤ c.dstMemBytes ∧ c.dstMemBytes ≤ 4294967296 ∧
  KnobRangeValid c.kmin.sharpness c.kmax.sharpness ∧
  KnobRangeValid c.kmin.resolution c.kmax.resolution ∧
  KnobRangeValid c.kmin.artifacts c.kmax.artifacts ∧
  KnobRangeValid c.kmin.fringing c.kmax.fringing ∧
  KnobRangeValid c.kmin.bleed c.kmax.bleed ∧
  c.xsCal.simNarrow ≤ 65535 ∧ c.xsCal.simWide ≤ 65535 ∧
  c.xsCal.hwbNarrow ≤ 65535 ∧ c.xsCal.hwbWide ≤ 65535 ∧
  1 ≤ c.ycal60 ∧ c.ycal60 ≤ 4095 ∧ 1 ≤ c.ycal50 ∧ c.ycal50 ≤ 4095

/-- The parameters of kind `k`. -/
def Config.kind (c : Config) : Kind → KindParams
  | .lr => c.lr
  | .hr => c.hr

/-- The default of TAPS and LEAD for a chunk pair: 2*IN(k) and floor(p*IN(k)/OUT(k))
(00_scope.md R7), with the other defaults of the kind. -/
def KindParams.default (inChunk outChunk : Nat) : KindParams where
  inChunk := inChunk
  outChunk := outChunk
  taps := 2 * inChunk
  lead := (List.range outChunk).map fun p => p * inChunk / outChunk
  sampleBits := 8
  rgbFallthrough := false

/-- The same value for all five knobs. -/
def Knobs.all {α : Type} (a : α) : Knobs α := ⟨a, a, a, a, a⟩

/-- The configuration `Machine.State.reset` carries: the defaults of 00_scope.md R7 where the spec
gives one, the stand-ins of 95_test_vectors.md section 0 (configuration TC) where it is OPEN.
DESIGN CHOICE, log 1: no statement rests on it. -/
def Config.standIn : Config where
  lr := KindParams.default 4 7
  hr := KindParams.default 4 8
  texelBytes := 2
  dstMemBytes := 65536
  kmin := Knobs.all (-256)
  kmax := Knobs.all 256
  xsCal := ⟨300, 350, 280, 330⟩
  ycal60 := 240
  ycal50 := 288
  tol := 0

/-- One entry of a decode table, the spec's opaque type Entry(k) (00_scope.md R7): an
uninterpreted token. Log 2. -/
structure Entry where
  token : Nat
  deriving DecidableEq, Repr, Inhabited

/-- The open functions of 00_scope.md R7. LutGen is given as two functions, since it ignores the
knobs unless the preset is CUSTOM; the texel Mix returns is the low 8*TEXEL_BYTES bits of `mix`'s
word. Log 2. -/
structure FilterModel where
  lutNamed     : Kind → Preset → Nat → Entry
  lutCustom    : Kind → Knobs Int → Nat → Entry
  mix          : Kind → Nat → Nat → List Entry → Word
  colorOf      : Kind → Nat → Word
  artifactFree : Kind → Preset → Knobs Int → Bool

/-- LutGen(k, preset, ·) for COMPOSITE, SVIDEO and RGB: uninterpreted (OPEN). -/
opaque Config.lutNamed : Kind → Preset → Nat → Entry

/-- LutGen(k, CUSTOM, knobs): uninterpreted (OPEN). -/
opaque Config.lutCustom : Kind → Knobs Int → Nat → Entry

/-- Mix(k, y, p, win): uninterpreted (OPEN). -/
opaque Config.mix : Kind → Nat → Nat → List Entry → Word

/-- ColorOf(k, code): uninterpreted (OPEN). Read by property SOLID alone. -/
opaque Config.colorOf : Kind → Nat → Word

/-- ArtifactFree(k, preset, knobs): uninterpreted (OPEN). Read by property SOLID alone. -/
opaque Config.artifactFree : Kind → Preset → Knobs Int → Bool

/-- The filter model of this machine: every function uninterpreted. -/
def Config.filterModel : FilterModel where
  lutNamed := Config.lutNamed
  lutCustom := Config.lutCustom
  mix := Config.mix
  colorOf := Config.colorOf
  artifactFree := Config.artifactFree

/-- The byte an outside reader finds at a DST address the block has never stored to: a free value
(20_memory.md R84, 93_implementation_defined.md U20). Log 5. -/
opaque Config.freeDstByte : Nat → Byte

/-- What SRC[i] holds while SRCV[i] = 0: a free value, since the entry holds no value
(20_memory.md R82). BLIT's check 8 keeps it from being read. Log 12. -/
opaque Config.freeSample : Nat → Half

/-- What a table holds beyond its last code: a free value, since a table is defined on
0..2^SAMPLE_BITS(k)-1 only. No code reaches it. Log 12. -/
opaque Config.freeEntry : Nat → Entry

end Sys2Proof
end

