-- ==== Sys2Proof/Machine/State.lean ====
section
/-! DEFINITION. The state of the block as plain data (10_state.md R32), its reset value (R50), and
the reasons a step can stop. -/

namespace Sys2Proof.Machine

/-- Why the machine stops with a fault: never. The block's nine faults are taken by the latch, and
the machine goes on, frozen (60_exceptions.md R246, R247): they are next states (log 16). Nothing
raises a value of this type, so no claim can rest on one: safe. -/
inductive Fault
  deriving DecidableEq, Repr

/-- Why a step has no meaning. -/
inductive Refusal where
  /-- Raised by exec's arm of an instruction that has no meaning yet: safe. No arm is left. -/
  | notModelled (mnemonic : String)
  /-- Raised by step when the configuration breaks a constraint of 00_scope.md R7 or R9: "not a
  configuration of this hardware" (93_implementation_defined.md U30). Safe. Log 8. -/
  | badConfiguration
  deriving DecidableEq, Repr

/-- The nine faults of the block (60_exceptions.md R241). -/
inductive FaultCause where
  | illCmd
  | bus
  | noCtx
  | width
  | line
  | pitch
  | align
  | dstRange
  | srcUninit
  deriving DecidableEq, Repr

/-- The registers of 10_state.md R34; `lineBuf i` is LINEBUF[i]. -/
inductive Reg where
  | cmd
  | status
  | faultInfo
  | faultCmd
  | knobSharpness
  | knobResolution
  | knobArtifacts
  | knobFringing
  | knobBleed
  | dstBase
  | dstPitch
  | dstLines
  | outwRes
  | rsWidth
  | rsHeight
  | rsCtrl
  | rsUserX
  | rsUserY
  | rsXShift
  | rsYShift
  | scXScale
  | scYScale
  | scXShift
  | scYShift
  | lineBuf (i : Nat)
  deriving DecidableEq, Repr

/-- What the outside can do to the block: a host read or write of `size` bytes at a byte offset of
REG (40_host_access_and_nop.md R140, R141), or a pulse of the reset input
(70_reset_and_hazards.md R270). Log 3, log 9, log 13. -/
inductive HostEvent where
  | read (off : Word) (size : Nat)
  | write (off : Word) (size : Nat) (v : Word)
  | rst
  deriving DecidableEq, Repr

/-- The read-write registers, each as wide as the bits its rule stores (10_state.md R38, R39, R43,
R44, R45, R48). -/
structure Regs where
  knobs    : Knobs Half
  dstBase  : Word
  dstPitch : BitVec 12
  dstLines : BitVec 11
  rsWidth  : Half
  rsHeight : Half
  rsCtrl   : BitVec 11
  rsUserX  : Half
  rsUserY  : Half
  rsXShift : Half
  rsYShift : Half
  deriving DecidableEq, Repr

/-- A valid FilterContext (10_state.md R40): the preset it was built with, the clamped knobs, and
the decode table, entry of code 0 first. -/
structure FilterContext where
  preset : Preset
  knobs  : Knobs Int
  lut    : List Entry
  deriving DecidableEq, Repr

/-- The ScalerState SS (10_state.md R46); the four words are two's-complement. -/
structure ScalerState where
  valid  : Bool
  xscale : Word
  yscale : Word
  xshift : Word
  yshift : Word
  intdbl : Bool
  deriving DecidableEq, Repr

/-- The fault latch (10_state.md R37). -/
structure FaultLatch where
  fault : Bool
  fcode : Byte
  fcmd  : Word
  deriving DecidableEq, Repr

/-- The host's side, outside the block (10_state.md R31): the accesses it will make, next first,
and the values its reads returned, oldest first. Log 3. -/
structure HostSide where
  pending : List HostEvent
  reads   : List Word
  deriving DecidableEq, Repr

/-- The destination memory: the bytes the block has stored, addresses strictly rising; an address
that is not listed holds no value the block knows (20_memory.md R84). Log 5. -/
abbrev Memory := List Host.Cell

/-- The source line buffer: the entries written since reset, indices strictly rising; SRCV[i] = 1
is i's being listed (20_memory.md R82). Log 6. -/
abbrev LineBuffer := List (Nat × Half)

/-- The state: 10_state.md R32 (a) to (g), the DST space (20_memory.md R84), and the model's own
`cfg` (log 1) and `host` (log 3). A context is `none` while its valid bit is 0 (R40, log 6). -/
structure State where
  regs    : Regs
  ctxLr   : Option FilterContext
  ctxHr   : Option FilterContext
  ss      : ScalerState
  src     : LineBuffer
  latch   : FaultLatch
  clipped : Bool
  outwRes : Word
  dst     : Memory
  cfg     : Config
  host    : HostSide
  deriving DecidableEq, Repr

/-- The machine right after reset (10_state.md R50): every register, flag and word 0, both contexts
and SS invalid, the line buffer unwritten, the latch clear; no byte of DST stored; and, the model's
own, the stand-in configuration (log 1) and a host with nothing pending (log 3). -/
def State.reset : State where
  regs :=
    { knobs := Knobs.all 0, dstBase := 0, dstPitch := 0, dstLines := 0, rsWidth := 0, rsHeight := 0,
      rsCtrl := 0, rsUserX := 0, rsUserY := 0, rsXShift := 0, rsYShift := 0 }
  ctxLr := none
  ctxHr := none
  ss := { valid := false, xscale := 0, yscale := 0, xshift := 0, yshift := 0, intdbl := false }
  src := []
  latch := { fault := false, fcode := 0, fcmd := 0 }
  clipped := false
  outwRes := 0
  dst := []
  cfg := Config.standIn
  host := { pending := [], reads := [] }

end Sys2Proof.Machine
end

