-- ==== Sys2Proof/Machine/Ops.lean ====
section
/-! DEFINITION. The named operations over memory, the line buffer, the contexts and the fault latch
that every meaning is written with; taking a fault is one of them. -/

namespace Sys2Proof.Machine

/-! ## Sparse cells: DST and SRC -/

/-- The value listed at `a`, if any. -/
def Cells.get? {α : Type} : List (Nat × α) → Nat → Option α
  | [], _ => none
  | (k, v) :: t, a => if a = k then some v else Cells.get? t a

/-- The cells with `v` at `a`, in rising order of address. -/
def Cells.set {α : Type} : List (Nat × α) → Nat → α → List (Nat × α)
  | [], a, v => [(a, v)]
  | (k, w) :: t, a, v =>
    if a < k then (a, v) :: (k, w) :: t
    else if a = k then (a, v) :: t
    else (k, w) :: Cells.set t a v

/-- The canonical form: addresses strictly rising. An unlisted address holds no value, so no listed
entry can equal what it reads as. -/
abbrev Cells.Canonical {α : Type} (m : List (Nat × α)) : Prop := m.Pairwise fun x y => x.1 < y.1

/-- The canonical form of the destination memory. -/
abbrev Memory.wf (m : Memory) : Prop := Cells.Canonical m

/-- The byte the block has stored at `a`, if it has stored one. -/
def Memory.read? (m : Memory) (a : Nat) : Option Byte := Cells.get? m a

/-- The byte an outside reader finds at `a`: the stored one, else a free value (20_memory.md R84).
Log 5. -/
def Memory.outsideRead (m : Memory) (a : Nat) : Byte := (Memory.read? m a).getD (Config.freeDstByte a)

/-- Byte `b` of an n-byte value, most significant first: v[8*(n-1-b)+7 : 8*(n-1-b)]
(20_memory.md R86). -/
def byteOf (n : Nat) (v : Word) (b : Nat) : Byte := BitVec.ofNat 8 (bits v (8 * (n - 1 - b) + 7) (8 * (n - 1 - b)))

/-- DstWrite(addr, n, v), big-endian (20_memory.md R86). -/
def dstWrite (m : Memory) (addr n : Nat) (v : Word) : Memory :=
  (List.range n).foldl (fun m b => Cells.set m (addr + b) (byteOf n v b)) m

/-- A list of n-byte stores, in order. -/
def dstWriteAll (m : Memory) (n : Nat) (stores : List (Nat × Word)) : Memory :=
  stores.foldl (fun m st => dstWrite m st.1 n st.2) m

/-- SRCV[i] (20_memory.md R82). -/
def srcWritten (b : LineBuffer) (i : Nat) : Bool := (Cells.get? b i).isSome

/-- SRC[i] <- v ; SRCV[i] <- 1 (10_state.md R47). -/
def srcWrite (b : LineBuffer) (i : Nat) (v : Half) : LineBuffer := Cells.set b i v

/-- SrcRead(k, i) for SAMPLE_BITS(k) = `sampleBits` (20_memory.md R83); a free value while SRCV[i]
is 0, where the spec leaves it undefined (log 12). -/
def srcRead (sampleBits : Nat) (b : LineBuffer) (i : Nat) : Nat :=
  ((Cells.get? b i).getD (Config.freeSample i)).toNat % 2 ^ sampleBits

/-! ## Updates of the state -/

/-- `s` with the read-write registers `r`. -/
def State.setRegs (s : State) (r : Regs) : State := { s with regs := r }

/-- CTX[k] (10_state.md R40); `none` is valid = 0. -/
def State.ctx (s : State) : Kind → Option FilterContext
  | .lr => s.ctxLr
  | .hr => s.ctxHr

/-- CTX[k] <- c, every field at once; the other kind's context stays (10_state.md R41). -/
def State.setCtx (s : State) (k : Kind) (c : Option FilterContext) : State :=
  match k with
  | .lr => { s with ctxLr := c }
  | .hr => { s with ctxHr := c }

/-- SS <- v, all six fields at once (41_scaler_resolve.md R167). -/
def State.setSs (s : State) (v : ScalerState) : State := { s with ss := v }

/-- `s` with the line buffer `b`. -/
def State.setSrc (s : State) (b : LineBuffer) : State := { s with src := b }

/-- `s` with the fault latch `l`. -/
def State.setLatch (s : State) (l : FaultLatch) : State := { s with latch := l }

/-- REG.OUTW_RES <- v (43_filter_blit.md R203). -/
def State.setOutwRes (s : State) (v : Word) : State := { s with outwRes := v }

/-- `s` with the destination memory `m` and the flag CLIPPED. -/
def State.setRow (s : State) (m : Memory) (clipped : Bool) : State :=
  { s with dst := m, clipped := clipped }

/-- `s` with the host's accesses still to come. -/
def State.setPending (s : State) (es : List HostEvent) : State :=
  { s with host := { s.host with pending := es } }

/-- `s` after a host read returned `v`. -/
def State.logRead (s : State) (v : Word) : State :=
  { s with host := { s.host with reads := s.host.reads ++ [v] } }

/-! ## Taking a fault -/

/-- FCODE of a fault (60_exceptions.md R241). -/
def FaultCause.code : FaultCause → Byte
  | .illCmd => 1
  | .bus => 2
  | .noCtx => 3
  | .width => 4
  | .line => 5
  | .pitch => 6
  | .align => 7
  | .dstRange => 8
  | .srcUninit => 9

/-- `raise <Fault>(info)`: if FAULT = 0, FAULT <- 1, FCODE <- code, FCMD <- info, and nothing else
changes; while FAULT = 1 the first fault is kept (60_exceptions.md R246, R248). -/
def raise (f : FaultCause) (info : Word) (s : State) : State :=
  if s.latch.fault then s else s.setLatch { fault := true, fcode := f.code, fcmd := info }

/-- A command in the frozen state has no effect at all (10_state.md R53); else `t`. -/
def unlessFrozen (s : State) (t : State) : Host.Outcome State Fault Refusal :=
  if s.latch.fault then .next s else .next t

/-- Reset (70_reset_and_hazards.md R270): every piece of the block's state as 10_state.md R50 says;
DST keeps its bytes (R272), the configuration is no state, and the host is outside the block. It is
the only way to clear FAULT and there is no other return from a fault (60_exceptions.md R248). -/
def hardReset (s : State) : State :=
  { State.reset with dst := s.dst, cfg := s.cfg, host := s.host }

end Sys2Proof.Machine
end

