-- ==== Sys2Proof/Machine/Operands.lean ====
section
/-! DEFINITION. The operands of the commands: the clamped knobs and the effective preset of FINIT,
the widths and the surface geometry of OUTW and BLIT, and the inputs of RESOLVE. -/

namespace Sys2Proof.Machine

/-! ## FINIT -/

/-- clamp(v, lo, hi) (00_scope.md R11). -/
def clamp (v lo hi : Int) : Int := if v < lo then lo else if hi < v then hi else v

/-- kn[i] = clamp(sext_16(REG.KNOB[i]), KMIN(i), KMAX(i)) (42_filter_init.md R181, R184). -/
def clampedKnobs (c : Config) (r : Knobs Half) : Knobs Int where
  sharpness := clamp r.sharpness.toInt c.kmin.sharpness c.kmax.sharpness
  resolution := clamp r.resolution.toInt c.kmin.resolution c.kmax.resolution
  artifacts := clamp r.artifacts.toInt c.kmin.artifacts c.kmax.artifacts
  fringing := clamp r.fringing.toInt c.kmin.fringing c.kmax.fringing
  bleed := clamp r.bleed.toInt c.kmin.bleed c.kmax.bleed

/-- Every knob value lies in its range KMIN(i)..KMAX(i) (42_filter_init.md R184). -/
abbrev KnobsInRange (c : Config) (kn : Knobs Int) : Prop :=
  (c.kmin.sharpness ≤ kn.sharpness ∧ kn.sharpness ≤ c.kmax.sharpness) ∧
  (c.kmin.resolution ≤ kn.resolution ∧ kn.resolution ≤ c.kmax.resolution) ∧
  (c.kmin.artifacts ≤ kn.artifacts ∧ kn.artifacts ≤ c.kmax.artifacts) ∧
  (c.kmin.fringing ≤ kn.fringing ∧ kn.fringing ≤ c.kmax.fringing) ∧
  (c.kmin.bleed ≤ kn.bleed ∧ kn.bleed ≤ c.kmax.bleed)

/-- eff = CUSTOM if PRESET = RGB and RGB_FALLTHROUGH(k), else PRESET (42_filter_init.md R185). -/
def effectivePreset (q : KindParams) (p : Preset) : Preset :=
  if p = .rgb ∧ q.rgbFallthrough = true then .custom else p

/-- LutGen(k, eff, kn) at one code; it ignores the knobs unless eff is CUSTOM (00_scope.md R7,
42_filter_init.md R186). -/
def lutGen (f : FilterModel) (k : Kind) (eff : Preset) (kn : Knobs Int) (code : Nat) : Entry :=
  if eff = .custom then f.lutCustom k kn code else f.lutNamed k eff code

/-- The table LutGen(k, eff, kn) on the codes 0..2^SAMPLE_BITS(k)-1 (42_filter_init.md R186). -/
def buildLut (f : FilterModel) (q : KindParams) (k : Kind) (eff : Preset) (kn : Knobs Int) :
    List Entry :=
  (List.range (2 ^ q.sampleBits)).map (lutGen f k eff kn)

/-- The entry a table holds for a code; a free value beyond the table (log 12). -/
def lutAt (lut : List Entry) (code : Nat) : Entry := lut.getD code (Config.freeEntry code)

/-! ## OUTW and BLIT: widths -/

/-- C(k, w), the number of full chunks (43_filter_blit.md R201). -/
def chunks (q : KindParams) (w : Nat) : Nat := w / q.inChunk

/-- r(k, w), the number of leading extra samples (43_filter_blit.md R201). -/
def extras (q : KindParams) (w : Nat) : Nat := w % q.inChunk

/-- OW(k, w) = outputWidth(w) (43_filter_blit.md R201). -/
def outputWidth (q : KindParams) (w : Nat) : Nat := (chunks q w + 1) * q.outChunk

/-- RW(k, w), rounded down to a multiple of 4 texels (43_filter_blit.md R202). -/
def roundedWidth (q : KindParams) (w : Nat) : Nat := outputWidth q w / 4 * 4

/-- The width domain IN(k) <= w <= 2047 (43_filter_blit.md R204). Log 11. -/
def widthValid (q : KindParams) (w : Nat) : Bool := decide (q.inChunk ≤ w ∧ w ≤ 2047)

/-! ## BLIT: the surface -/

/-- TILE_BYTES (20_memory.md R87). -/
def tileBytes (c : Config) : Nat := 16 * c.texelBytes

/-- TexelAddr(x, y), in unbounded integers (20_memory.md R90, R95). -/
def texelAddr (c : Config) (r : Regs) (x y : Nat) : Nat :=
  r.dstBase.toNat + (y / 4 * r.dstPitch.toNat + x / 4) * tileBytes c +
    (y % 4 * 4 + x % 4) * c.texelBytes

/-- NW = min(OW, 4*DST_PITCH), the number of pixels stored (43_filter_blit.md R215). -/
def storedWidth (q : KindParams) (r : Regs) (w : Nat) : Nat :=
  min (outputWidth q w) (4 * r.dstPitch.toNat)

/-! ## BLIT: the stream and the window -/

/-- V(n): the border code 0 before the row and after the last full chunk, the row between
(43_filter_blit.md R205). -/
def stream (q : KindParams) (b : LineBuffer) (w : Nat) (n : Int) : Nat :=
  if n < -(extras q w : Int) then 0
  else if n < (chunks q w * q.inChunk : Nat) then srcRead q.sampleBits b (n + extras q w).toNat
  else 0

/-- p = j mod OUT(k), the phase of pixel j (43_filter_blit.md R211). -/
def phase (q : KindParams) (j : Nat) : Nat := j % q.outChunk

/-- nn(j) = c*IN(k) + LEAD(k, p), the newest stream position of pixel j (43_filter_blit.md R211). -/
def newest (q : KindParams) (j : Nat) : Nat :=
  j / q.outChunk * q.inChunk + q.lead.getD (phase q j) 0

/-- win(j): the decoded entries of the TAPS(k) stream positions that end at nn(j), oldest first
(43_filter_blit.md R210, R211). -/
def window (q : KindParams) (lut : List Entry) (b : LineBuffer) (w j : Nat) : List Entry :=
  (List.range q.taps).map fun t : Nat =>
    lutAt lut (stream q b w ((newest q j : Int) - q.taps + 1 + (t : Int)))

/-- px(j) = Mix(k, LINE, p, win(j)) (43_filter_blit.md R210). -/
def pixel (f : FilterModel) (q : KindParams) (k : Kind) (lut : List Entry) (b : LineBuffer)
    (w line j : Nat) : Word :=
  f.mix k line (phase q j) (window q lut b w j)

/-! ## RESOLVE -/

/-- The inputs of the resolver (41_scaler_resolve.md R152). -/
structure ResolveInputs where
  w                : Nat
  h                : Nat
  aspectOrig       : Bool
  widescreen       : Bool
  ovsV             : Bool
  ovsH             : Bool
  htimingWide      : Bool
  emuPal           : Bool
  hwPal            : Bool
  dblHeight        : Bool
  smooth           : Bool
  filterOn         : Bool
  borderlessNarrow : Bool
  ux               : Int
  uy               : Int
  sx               : Int
  sy               : Int
  deriving DecidableEq, Repr

/-- The operand mapping of 41_scaler_resolve.md R152 with the bit places of 10_state.md R44. -/
def resolveInputs (r : Regs) : ResolveInputs where
  w := r.rsWidth.toNat
  h := r.rsHeight.toNat
  aspectOrig := r.rsCtrl.getLsbD 0
  widescreen := r.rsCtrl.getLsbD 1
  ovsV := r.rsCtrl.getLsbD 2
  ovsH := r.rsCtrl.getLsbD 3
  htimingWide := r.rsCtrl.getLsbD 4
  emuPal := r.rsCtrl.getLsbD 5
  hwPal := r.rsCtrl.getLsbD 6
  dblHeight := r.rsCtrl.getLsbD 7
  smooth := r.rsCtrl.getLsbD 8
  filterOn := r.rsCtrl.getLsbD 9
  borderlessNarrow := r.rsCtrl.getLsbD 10
  ux := r.rsUserX.toInt
  uy := r.rsUserY.toInt
  sx := r.rsXShift.toInt
  sy := r.rsYShift.toInt

/-- YCAL(pal) (41_scaler_resolve.md R153). -/
def ycal (c : Config) (pal : Bool) : Nat := if pal then c.ycal50 else c.ycal60

/-- XS_CAL(b, t): b = HWB when horizontal overscan is on, t = WIDE when the horizontal timing is
wide (41_scaler_resolve.md R156). -/
def xsCalOf (c : Config) (hwb wide : Bool) : Nat :=
  match hwb, wide with
  | false, false => c.xsCal.simNarrow
  | false, true => c.xsCal.simWide
  | true, false => c.xsCal.hwbNarrow
  | true, true => c.xsCal.hwbWide

end Sys2Proof.Machine
end

