-- ==== Sys2Proof/Machine/Flags.lean ====
section
/-! DEFINITION. The flags: the STATUS view (10_state.md R36) and the two flags a command computes. -/

namespace Sys2Proof.Machine

/-- STATUS as a view: FAULT, CTXV_LR, CTXV_HR, SCV, INTDBL, CLIPPED in bits 0 to 5, the rest 0
(10_state.md R36). -/
def statusWord (s : State) : Word :=
  BitVec.ofNat 32
    (s.latch.fault.toNat + s.ctxLr.isSome.toNat * 2 + s.ctxHr.isSome.toNat * 4 +
      s.ss.valid.toNat * 8 + s.ss.intdbl.toNat * 16 + s.clipped.toNat * 32)

/-- The output `fault_o`, equal to FAULT at all times (60_exceptions.md R250). -/
def faultOut (s : State) : Bool := s.latch.fault

/-- INTDBL: W <= 320, SMOOTH = 0, FILTER_ON = 0 and 2*W <= 720 (41_scaler_resolve.md R166). -/
def intdblFlag (x : ResolveInputs) : Bool :=
  decide (x.w ≤ 320) && !x.smooth && !x.filterOn && decide (2 * x.w ≤ 720)

/-- CLIPPED: OW > 4*DST_PITCH (43_filter_blit.md R216). -/
def clippedFlag (q : KindParams) (r : Regs) (w : Nat) : Bool :=
  decide (4 * r.dstPitch.toNat < outputWidth q w)

end Sys2Proof.Machine
end

