-- ==== Sys2Proof/Machine/Blit.lean ====
section
/-! DEFINITION. OUTW and BLIT (43_filter_blit.md). -/

namespace Sys2Proof.Machine

/-! ## OUTW -/

/-- The word OUTW writes: bits 31:16 = RW, bits 15:0 = OW (43_filter_blit.md R203). -/
def outwWord (q : KindParams) (w : Nat) : Word :=
  BitVec.ofNat 16 (roundedWidth q w) ++ BitVec.ofNat 16 (outputWidth q w)

/-- The effect of OUTW (43_filter_blit.md R203). FCMD of a fault is the command word (log 10). -/
def outwEffect (k : Kind) (w : Nat) (s : State) : State :=
  if widthValid (s.cfg.kind k) w then s.setOutwRes (outwWord (s.cfg.kind k) w)
  else raise .width (encode (.outw k w)) s

/-- OUTW (43_filter_blit.md R203). -/
def execOutw (k : Kind) (w : Nat) (s : State) : Host.Outcome State Fault Refusal :=
  unlessFrozen s (outwEffect k w s)

/-! ## BLIT -/

/-- Checks 2 to 8 of 43_filter_blit.md R209, in order: the first that fails, if any. Check 1 is the
decoder's. -/
def blitCheck (k : Kind) (w line : Nat) (s : State) : Option FaultCause :=
  let q := s.cfg.kind k
  if (s.ctx k).isNone then some .noCtx
  else if !widthValid q w then some .width
  else if s.regs.dstLines.toNat ≤ line then some .line
  else if s.regs.dstPitch.toNat = 0 then some .pitch
  else if s.regs.dstBase.toNat % tileBytes s.cfg ≠ 0 then some .align
  else if s.cfg.dstMemBytes ≤
      texelAddr s.cfg s.regs (storedWidth q s.regs w - 1) line + s.cfg.texelBytes - 1 then
    some .dstRange
  else if !(List.range w).all (srcWritten s.src) then some .srcUninit
  else none

/-- The table of CTX[k]; none while it is invalid. -/
def ctxLut (s : State) (k : Kind) : List Entry := ((s.ctx k).map (·.lut)).getD []

/-- The stores of a BLIT: pixel j, 0 <= j < NW, at TexelAddr(j, LINE) (43_filter_blit.md R213,
R215). -/
def blitStores (f : FilterModel) (k : Kind) (w line : Nat) (s : State) : List (Nat × Word) :=
  (List.range (storedWidth (s.cfg.kind k) s.regs w)).map fun j =>
    (texelAddr s.cfg s.regs j line, pixel f (s.cfg.kind k) k (ctxLut s k) s.src w line j)

/-- DST after a BLIT that passes its checks (43_filter_blit.md R208). -/
def blitMemory (f : FilterModel) (k : Kind) (w line : Nat) (s : State) : Memory :=
  dstWriteAll s.dst s.cfg.texelBytes (blitStores f k w line s)

/-- The effect of BLIT, for any filter model (43_filter_blit.md R208, R209, R216). FCMD of a fault
is the command word (log 10). -/
def blitEffect (f : FilterModel) (k : Kind) (w line : Nat) (s : State) : State :=
  match blitCheck k w line s with
  | some cause => raise cause (encode (.blit k w line)) s
  | none => s.setRow (blitMemory f k w line s) (clippedFlag (s.cfg.kind k) s.regs w)

/-- BLIT (43_filter_blit.md R208). -/
def execBlit (k : Kind) (w line : Nat) (s : State) : Host.Outcome State Fault Refusal :=
  unlessFrozen s (blitEffect Config.filterModel k w line s)

end Sys2Proof.Machine
end

