-- ==== Sys2Proof/Machine/Filter.lean ====
section
/-! DEFINITION. FINIT and FFREE (42_filter_init.md). -/

namespace Sys2Proof.Machine

/-- CTX[k] <- valid = 0 (42_filter_init.md R182, R190). -/
def releaseCtx (k : Kind) (s : State) : State := s.setCtx k none

/-- The context FINIT builds for a preset other than OFF from the staged knobs
(42_filter_init.md R181). -/
def builtContext (f : FilterModel) (k : Kind) (p : Preset) (s : State) : FilterContext :=
  let kn := clampedKnobs s.cfg s.regs.knobs
  { preset := p
    knobs := kn
    lut := buildLut f (s.cfg.kind k) k (effectivePreset (s.cfg.kind k) p) kn }

/-- The effect of FINIT, for any filter model (42_filter_init.md R181). -/
def finitEffect (f : FilterModel) (k : Kind) (p : Preset) (s : State) : State :=
  if p = .off then releaseCtx k s else s.setCtx k (some (builtContext f k p s))

/-- FINIT (42_filter_init.md R181). -/
def execFinit (k : Kind) (p : Preset) (s : State) : Host.Outcome State Fault Refusal :=
  unlessFrozen s (finitEffect Config.filterModel k p s)

/-- FFREE (42_filter_init.md R190). -/
def execFfree (k : Kind) (s : State) : Host.Outcome State Fault Refusal :=
  unlessFrozen s (releaseCtx k s)

end Sys2Proof.Machine
end

