-- ==== Sys2Proof/Machine/Nop.lean ====
section
/-! DEFINITION. NOP (40_host_access_and_nop.md R145). -/

namespace Sys2Proof.Machine

/-- NOP: nothing (40_host_access_and_nop.md R145). -/
def execNop (s : State) : Host.Outcome State Fault Refusal := unlessFrozen s s

end Sys2Proof.Machine
end

