-- ==== Sys2Proof/Machine/Resolve.lean ====
section
/-! DEFINITION. RESOLVE, the scaler/aspect resolver (41_scaler_resolve.md), in unbounded integers;
every `/` has a non-negative dividend and a positive divisor (R163), so it is floor division. -/

namespace Sys2Proof.Machine

/-- Step 1: half the emulated height (41_scaler_resolve.md R154). -/
def baseYScale (x : ResolveInputs) : Int := x.h / 2

/-- Step 2, vertical: the cross-multiplication correction when the timing classes differ
(41_scaler_resolve.md R155). -/
def originalYScale (c : Config) (x : ResolveInputs) : Int :=
  if x.emuPal ≠ x.hwPal then baseYScale x * ycal c x.hwPal / ycal c x.emuPal else baseYScale x

/-- Step 2, horizontal: a calibrated ratio, times 3/4 for widescreen output
(41_scaler_resolve.md R156, R157). -/
def originalXScale (c : Config) (x : ResolveInputs) : Int :=
  if x.widescreen then (xsCalOf c x.ovsH x.htimingWide : Int) * 3 / 4
  else xsCalOf c x.ovsH x.htimingWide

/-- Step 3, the default horizontal scale, rescaled 320/256 when the timing is narrow
(41_scaler_resolve.md R158). -/
def manualDefaultXScale (x : ResolveInputs) : Int :=
  if x.htimingWide then x.w else (x.w : Int) * 320 / 256

/-- Step 3, horizontal: the full-bleed override, then the user offset
(41_scaler_resolve.md R159, R160). -/
def manualXScale (x : ResolveInputs) : Int :=
  (if x.borderlessNarrow && !x.ovsH then 320 else manualDefaultXScale x) + x.ux

/-- Step 3, vertical: the full-bleed override, then the user offset
(41_scaler_resolve.md R159, R160). -/
def manualYScale (x : ResolveInputs) : Int :=
  (if x.borderlessNarrow && !x.ovsV then 112 else baseYScale x) + x.uy

/-- The horizontal scale (41_scaler_resolve.md R151). -/
def xScale (c : Config) (x : ResolveInputs) : Int :=
  if x.aspectOrig then originalXScale c x else manualXScale x

/-- The vertical scale before step 4. -/
def yScaleSingle (c : Config) (x : ResolveInputs) : Int :=
  if x.aspectOrig then originalYScale c x else manualYScale x

/-- The vertical scale, doubled last for a double-height mode (41_scaler_resolve.md R161). -/
def yScale (c : Config) (x : ResolveInputs) : Int :=
  if x.dblHeight then yScaleSingle c x * 2 else yScaleSingle c x

/-- trunc32(v) as the 32-bit word that holds it (00_scope.md R11). -/
def trunc32 (v : Int) : Word := BitVec.ofInt 32 v

/-- The whole ScalerState of one resolution (41_scaler_resolve.md R151, R162, R166, R167). -/
def resolution (c : Config) (x : ResolveInputs) : ScalerState where
  valid := true
  xscale := trunc32 (xScale c x)
  yscale := trunc32 (yScale c x)
  xshift := trunc32 x.sx
  yshift := trunc32 x.sy
  intdbl := intdblFlag x

/-- The effect of RESOLVE (41_scaler_resolve.md R151, R167). -/
def resolveEffect (s : State) : State := s.setSs (resolution s.cfg (resolveInputs s.regs))

/-- RESOLVE (41_scaler_resolve.md R151). -/
def execResolve (s : State) : Host.Outcome State Fault Refusal := unlessFrozen s (resolveEffect s)

end Sys2Proof.Machine
end

