-- ==== Sys2Proof/Machine/Dispatch.lean ====
section
/-! DEFINITION. The meaning of each command: one arm per constructor of Instr. -/

namespace Sys2Proof.Machine

/-- What a command does when its word is written to CMD (10_state.md R35). -/
def exec (i : Instr) (s : State) : Host.Outcome State Fault Refusal :=
  match i with
  | .nop => Sys2Proof.Machine.execNop s
  | .finit k p => Sys2Proof.Machine.execFinit k p s
  | .ffree k => Sys2Proof.Machine.execFfree k s
  | .outw k w => Sys2Proof.Machine.execOutw k w s
  | .blit k w line => Sys2Proof.Machine.execBlit k w line s
  | .resolve => Sys2Proof.Machine.execResolve s

end Sys2Proof.Machine
end

