-- ==== Sys2Proof/Machine/Registers.lean ====
section
/-! DEFINITION. The register space REG (10_state.md R33, R34): the map, what a register reads as,
and what a write to it stores. -/

namespace Sys2Proof.Machine

/-- What the host may do with a register (10_state.md R34). -/
inductive Access where
  | rw
  | ro
  | wo
  deriving DecidableEq, Repr

/-- The map of 10_state.md R34 but for the LINEBUF window. -/
def registerMap : List (Nat × Reg) :=
  [(0x0000, .cmd), (0x0004, .status), (0x0008, .faultInfo), (0x000C, .faultCmd),
   (0x0010, .knobSharpness), (0x0014, .knobResolution), (0x0018, .knobArtifacts),
   (0x001C, .knobFringing), (0x0020, .knobBleed), (0x0024, .dstBase), (0x0028, .dstPitch),
   (0x002C, .dstLines), (0x0030, .outwRes), (0x0040, .rsWidth), (0x0044, .rsHeight),
   (0x0048, .rsCtrl), (0x004C, .rsUserX), (0x0050, .rsUserY), (0x0054, .rsXShift),
   (0x0058, .rsYShift), (0x0060, .scXScale), (0x0064, .scYScale), (0x0068, .scXShift),
   (0x006C, .scYShift)]

/-- The register at a byte offset, if one is mapped there (10_state.md R34; LINEBUF[i] is at
0x1000 + 4*i, i = 0..2047). -/
def regAtOffset (off : Nat) : Option Reg :=
  if 0x1000 ≤ off ∧ off < 0x3000 then
    if off % 4 = 0 then some (.lineBuf ((off - 0x1000) / 4)) else none
  else Cells.get? registerMap off

/-- The register an access reaches; none if the access is illegal: not 32 bits wide, or not at the
offset of a register (40_host_access_and_nop.md R140). -/
def regAt (off : Word) (size : Nat) : Option Reg :=
  if size = 4 then regAtOffset off.toNat else none

/-- The offset of a register (10_state.md R34). -/
def Reg.offset : Reg → Word
  | .cmd => 0x0000
  | .status => 0x0004
  | .faultInfo => 0x0008
  | .faultCmd => 0x000C
  | .knobSharpness => 0x0010
  | .knobResolution => 0x0014
  | .knobArtifacts => 0x0018
  | .knobFringing => 0x001C
  | .knobBleed => 0x0020
  | .dstBase => 0x0024
  | .dstPitch => 0x0028
  | .dstLines => 0x002C
  | .outwRes => 0x0030
  | .rsWidth => 0x0040
  | .rsHeight => 0x0044
  | .rsCtrl => 0x0048
  | .rsUserX => 0x004C
  | .rsUserY => 0x0050
  | .rsXShift => 0x0054
  | .rsYShift => 0x0058
  | .scXScale => 0x0060
  | .scYScale => 0x0064
  | .scXShift => 0x0068
  | .scYShift => 0x006C
  | .lineBuf i => BitVec.ofNat 32 (0x1000 + 4 * i)

/-- The access column of 10_state.md R34. -/
def Reg.access : Reg → Access
  | .cmd => .wo
  | .status => .ro
  | .faultInfo => .ro
  | .faultCmd => .ro
  | .knobSharpness => .rw
  | .knobResolution => .rw
  | .knobArtifacts => .rw
  | .knobFringing => .rw
  | .knobBleed => .rw
  | .dstBase => .rw
  | .dstPitch => .rw
  | .dstLines => .rw
  | .outwRes => .ro
  | .rsWidth => .rw
  | .rsHeight => .rw
  | .rsCtrl => .rw
  | .rsUserX => .rw
  | .rsUserY => .rw
  | .rsXShift => .rw
  | .rsYShift => .rw
  | .scXScale => .ro
  | .scYScale => .ro
  | .scXShift => .ro
  | .scYShift => .ro
  | .lineBuf _ => .wo

/-- What a read of a register returns: the stored or viewed bits in place, 0 elsewhere; 0 for a
write-only register (40_host_access_and_nop.md R140, 10_state.md R48). -/
def readReg (s : State) : Reg → Word
  | .cmd => 0
  | .status => statusWord s
  | .faultInfo => s.latch.fcode.setWidth 32
  | .faultCmd => s.latch.fcmd
  | .knobSharpness => s.regs.knobs.sharpness.setWidth 32
  | .knobResolution => s.regs.knobs.resolution.setWidth 32
  | .knobArtifacts => s.regs.knobs.artifacts.setWidth 32
  | .knobFringing => s.regs.knobs.fringing.setWidth 32
  | .knobBleed => s.regs.knobs.bleed.setWidth 32
  | .dstBase => s.regs.dstBase
  | .dstPitch => s.regs.dstPitch.setWidth 32
  | .dstLines => s.regs.dstLines.setWidth 32
  | .outwRes => s.outwRes
  | .rsWidth => s.regs.rsWidth.setWidth 32
  | .rsHeight => s.regs.rsHeight.setWidth 32
  | .rsCtrl => s.regs.rsCtrl.setWidth 32
  | .rsUserX => s.regs.rsUserX.setWidth 32
  | .rsUserY => s.regs.rsUserY.setWidth 32
  | .rsXShift => s.regs.rsXShift.setWidth 32
  | .rsYShift => s.regs.rsYShift.setWidth 32
  | .scXScale => s.ss.xscale
  | .scYScale => s.ss.yscale
  | .scXShift => s.ss.xshift
  | .scYShift => s.ss.yshift
  | .lineBuf _ => 0

/-- The state with one staged knob replaced (10_state.md R38). -/
def setKnobs (s : State) (f : Knobs Half → Knobs Half) : State :=
  s.setRegs { s.regs with knobs := f s.regs.knobs }

/-- What a write to a register other than CMD stores: the bits the register's rule names
(10_state.md R48), SRC[i] and SRCV[i] for LINEBUF[i] (R47), nothing for a read-only register
(40_host_access_and_nop.md R141). CMD has no storage (10_state.md R35). -/
def storeReg (r : Reg) (v : Word) (s : State) : State :=
  match r with
  | .cmd => s
  | .status => s
  | .faultInfo => s
  | .faultCmd => s
  | .knobSharpness => setKnobs s fun kn => { kn with sharpness := v.setWidth 16 }
  | .knobResolution => setKnobs s fun kn => { kn with resolution := v.setWidth 16 }
  | .knobArtifacts => setKnobs s fun kn => { kn with artifacts := v.setWidth 16 }
  | .knobFringing => setKnobs s fun kn => { kn with fringing := v.setWidth 16 }
  | .knobBleed => setKnobs s fun kn => { kn with bleed := v.setWidth 16 }
  | .dstBase => s.setRegs { s.regs with dstBase := v }
  | .dstPitch => s.setRegs { s.regs with dstPitch := v.setWidth 12 }
  | .dstLines => s.setRegs { s.regs with dstLines := v.setWidth 11 }
  | .outwRes => s
  | .rsWidth => s.setRegs { s.regs with rsWidth := v.setWidth 16 }
  | .rsHeight => s.setRegs { s.regs with rsHeight := v.setWidth 16 }
  | .rsCtrl => s.setRegs { s.regs with rsCtrl := v.setWidth 11 }
  | .rsUserX => s.setRegs { s.regs with rsUserX := v.setWidth 16 }
  | .rsUserY => s.setRegs { s.regs with rsUserY := v.setWidth 16 }
  | .rsXShift => s.setRegs { s.regs with rsXShift := v.setWidth 16 }
  | .rsYShift => s.setRegs { s.regs with rsYShift := v.setWidth 16 }
  | .scXScale => s
  | .scYScale => s
  | .scXShift => s
  | .scYShift => s
  | .lineBuf i => s.setSrc (srcWrite s.src i (v.setWidth 16))

end Sys2Proof.Machine
end

