-- ==== Sys2Proof/Machine/HostAccess.lean ====
section
/-! DEFINITION. The two host access primitives (40_host_access_and_nop.md R140, R141) and one move
of the machine: the host's next access. -/

namespace Sys2Proof.Machine

/-- The value HostRead32 returns: the register's, or 0 for an illegal access
(40_host_access_and_nop.md R140). -/
def hostReadValue (off : Word) (size : Nat) (s : State) : Word :=
  match regAt off size with
  | some r => readReg s r
  | none => 0

/-- HostRead32 (40_host_access_and_nop.md R140): a legal read changes no state of the block; an
illegal one raises E_BUS(off), unless FAULT = 1. The value goes to the host. -/
def hostRead (off : Word) (size : Nat) (s : State) : State :=
  match regAt off size with
  | some r => s.logRead (readReg s r)
  | none => (raise .bus off s).logRead 0

/-- A write to CMD executes the command it encodes, or raises E_ILLCMD (10_state.md R35,
30_encoding.md R121). -/
def writeCmd (v : Word) (s : State) : Host.Outcome State Fault Refusal :=
  match decode v with
  | .ok i => exec i s
  | .error _ => .next (raise .illCmd v s)

/-- HostWrite32, evaluated in the order of 40_host_access_and_nop.md R141. -/
def hostWrite (off : Word) (size : Nat) (v : Word) (s : State) : Host.Outcome State Fault Refusal :=
  if s.latch.fault then .next s
  else
    match regAt off size with
    | none => .next (raise .bus off s)
    | some .cmd => writeCmd v s
    | some r => .next (storeReg r v s)

/-- One event of the outside world. -/
def hostEvent (e : HostEvent) (s : State) : Host.Outcome State Fault Refusal :=
  match e with
  | .read off size => .next (hostRead off size s)
  | .write off size v => hostWrite off size v s
  | .rst => .next (hardReset s)

/-- The host's next access, taken off the queue and made; the block steps only inside a host access
(60_exceptions.md R258), so with none pending nothing changes (log 4). -/
def serveHost (s : State) : Host.Outcome State Fault Refusal :=
  match s.host.pending with
  | [] => .next s
  | e :: rest => hostEvent e (s.setPending rest)

/-- One move of the machine; a record that is "not a configuration of this hardware" is refused
(93_implementation_defined.md U30, log 8). -/
def advance (s : State) : Host.Outcome State Fault Refusal :=
  if s.cfg.Valid then serveHost s else .refused .badConfiguration

/-- `s` with a write of the command word `c` to CMD as the host's next access. -/
def withCommand (s : State) (c : Word) : State :=
  s.setPending (.write Reg.cmd.offset 4 c :: s.host.pending)

end Sys2Proof.Machine
end

