-- ==== Sys2Proof/Machine/Step.lean ====
section
/-! DEFINITION. One step of the machine, and how a command word comes to be its next. -/

namespace Sys2Proof.Machine

/-- One step: the host's next access (10_state.md R31: commands reach the block one at a time, in
the order the host issues them). -/
def step (s : State) : Host.Outcome State Fault Refusal := Sys2Proof.Machine.advance s

/-- `s` with the table word written to CMD as the host's very next access. The block has no program
counter and fetches nothing (10_state.md R31, log 3). -/
def State.withFetchWord (s : State) (nbits w : Nat) : State :=
  Sys2Proof.Machine.withCommand s (tableWord nbits w)

end Sys2Proof.Machine
end

