-- ==== Sys2Proof/Machine/HostScript.lean ====
section
/-! DEFINITION. The host script of 30_encoding.md R130 and R132: statements, their ranges, and the
host accesses they stand for. The script is the host's, outside the block (10_state.md R31). -/

namespace Sys2Proof.Machine

/-- A statement or pseudo-statement (30_encoding.md R130, R132). `command` covers NOP, FINIT, FFREE,
OUTW, BLIT and RESOLVE; `wrAt` and `rdAt` are WR and RD with a numeric offset
(95_test_vectors.md). Log 17. -/
inductive Stmt where
  | wr (r : Reg) (imm : Nat)
  | rd (r : Reg)
  | wrAt (off imm : Nat)
  | rdAt (off : Nat)
  | src (i v : Nat)
  | command (i : Instr)
  | cmd (imm : Nat)
  | row (vs : List Nat)
  | knobs (s r a f b : Int)
  | surface (base pitch lines : Nat)
  | geom (w h ctrl : Nat)
  deriving DecidableEq, Repr

/-- An imm32 (30_encoding.md R130). -/
def immFits (v : Nat) : Bool := decide (v < 4294967296)

/-- A register name of 10_state.md R34: LINEBUF[i] has i = 0..2047. -/
def regNamed : Reg → Bool
  | .lineBuf i => decide (i ≤ 2047)
  | _ => true

/-- A knob operand, -32768..32767 (30_encoding.md R132). -/
def knobFits (v : Int) : Bool := decide (-32768 ≤ v ∧ v ≤ 32767)

/-- The operands of a statement are in their stated ranges (30_encoding.md R130, R132). DESIGN CHOICE
where R132 states none: ROW takes 0 to 2048 values, a ROW of none being no access, and the operands
of ROW, SURFACE and GEOM are imm32, as `v` of SRC is. Log 17. -/
def Stmt.inRange : Stmt → Bool
  | .wr r imm => regNamed r && immFits imm
  | .rd r => regNamed r
  | .wrAt off imm => immFits off && immFits imm
  | .rdAt off => immFits off
  | .src i v => decide (i ≤ 2047) && immFits v
  | .command i => i.wf
  | .cmd imm => immFits imm
  | .row vs => decide (vs.length ≤ 2048) && vs.all immFits
  | .knobs s r a f b => knobFits s && knobFits r && knobFits a && knobFits f && knobFits b
  | .surface base pitch lines => immFits base && immFits pitch && immFits lines
  | .geom w h ctrl => immFits w && immFits h && immFits ctrl

/-- HostWrite32(offset(r), v). -/
def writeTo (r : Reg) (v : Word) : HostEvent := .write r.offset 4 v

/-- The low 16 bits of a signed operand, `v AND 0xFFFF` (30_encoding.md R132). -/
def and16 (v : Int) : Word := (BitVec.ofInt 16 v).setWidth 32

/-- The host accesses of a statement, in order (30_encoding.md R130, R132). -/
def Stmt.events : Stmt → List HostEvent
  | .wr r imm => [writeTo r (BitVec.ofNat 32 imm)]
  | .rd r => [.read r.offset 4]
  | .wrAt off imm => [.write (BitVec.ofNat 32 off) 4 (BitVec.ofNat 32 imm)]
  | .rdAt off => [.read (BitVec.ofNat 32 off) 4]
  | .src i v => [writeTo (.lineBuf i) (BitVec.ofNat 32 v)]
  | .command i => [writeTo .cmd (encode i)]
  | .cmd imm => [writeTo .cmd (BitVec.ofNat 32 imm)]
  | .row vs => vs.zipIdx.map fun vi => writeTo (.lineBuf vi.2) (BitVec.ofNat 32 vi.1)
  | .knobs s r a f b =>
    [writeTo .knobSharpness (and16 s), writeTo .knobResolution (and16 r),
     writeTo .knobArtifacts (and16 a), writeTo .knobFringing (and16 f),
     writeTo .knobBleed (and16 b)]
  | .surface base pitch lines =>
    [writeTo .dstBase (BitVec.ofNat 32 base), writeTo .dstPitch (BitVec.ofNat 32 pitch),
     writeTo .dstLines (BitVec.ofNat 32 lines)]
  | .geom w h ctrl =>
    [writeTo .rsWidth (BitVec.ofNat 32 w), writeTo .rsHeight (BitVec.ofNat 32 h),
     writeTo .rsCtrl (BitVec.ofNat 32 ctrl)]

/-- The accesses of a script, or none: a script with an operand outside its range "is rejected
before it runs" (30_encoding.md R130, 93_implementation_defined.md U31). -/
def assemble (script : List Stmt) : Option (List HostEvent) :=
  if script.all Stmt.inRange then some (script.flatMap Stmt.events) else none

end Sys2Proof.Machine
end

