-- ==== Sys2Proof/Machine/Solid.lean ====
section
/-! DEFINITION. Property SOLID, a constraint on the configuration (43_filter_blit.md R221). The
machine never assumes it: a claim that rests on it names it as a premise (00_scope.md R9, log 15). -/

namespace Sys2Proof.Machine

/-- The colour channels of a texel: RGB565 or RGBA (20_memory.md R88). -/
def channels (texelBytes : Nat) (t : Word) : List Nat :=
  if texelBytes = 2 then [bits t 15 11, bits t 10 5, bits t 4 0]
  else [bits t 31 24, bits t 23 16, bits t 15 8, bits t 7 0]

/-- "Within TOL": each channel of the two texels differs by at most TOL (43_filter_blit.md R221). -/
abbrev WithinTol (c : Config) (t u : Word) : Prop :=
  ∀ ab ∈ (channels c.texelBytes t).zip (channels c.texelBytes u),
    ab.1 ≤ ab.2 + c.tol ∧ ab.2 ≤ ab.1 + c.tol

/-- Property SOLID: a window of TAPS(k) equal entries of a code, under artifact-free settings, mixes
to that code's colour within TOL, on every line and phase (43_filter_blit.md R221). -/
def Solid (c : Config) (f : FilterModel) : Prop :=
  ∀ (k : Kind) (p : Preset) (kn : Knobs Int) (v y ph : Nat),
    p ≠ .off → KnobsInRange c kn → f.artifactFree k p kn = true →
    v < 2 ^ (c.kind k).sampleBits → y ≤ 1023 → ph < (c.kind k).outChunk →
    WithinTol c
      (f.mix k y ph
        (List.replicate (c.kind k).taps (lutGen f k (effectivePreset (c.kind k) p) kn v)))
      (f.colorOf k v)

/-- Pixel j is interior: its window holds row samples only (43_filter_blit.md R221). -/
abbrev Interior (q : KindParams) (w j : Nat) : Prop :=
  -(extras q w : Int) ≤ (newest q j : Int) - q.taps + 1 ∧
    (newest q j : Int) ≤ (chunks q w * q.inChunk : Nat) - 1

end Sys2Proof.Machine
end

