-- ==== Sys2Proof/Safety.lean ====
section
/-! DEFINITION. What counts as a good run, what a run shows, and the invariant of the machine, in
the terms the statements use. -/

namespace Sys2Proof.Machine

/-- The run has ended: the host has no access left (70_reset_and_hazards.md R287). -/
def State.finished (s : State) : Bool := s.host.pending.isEmpty

/-- The state is good: FAULT = 0 (70_reset_and_hazards.md R287, 60_exceptions.md R247). -/
def State.good (s : State) : Bool := !s.latch.fault

/-- What a run shows: the values read, the value of every mapped register, and the DST bytes stored
(70_reset_and_hazards.md R287). -/
structure Observation where
  reads     : List Word
  registers : List (Nat × Word)
  stored    : Memory
  deriving DecidableEq, Repr

/-- The observation of a state (70_reset_and_hazards.md R287). -/
def State.observe (s : State) : Observation where
  reads := s.host.reads
  registers := registerMap.map fun e => (e.1, readReg s e.2)
  stored := s.dst

/-- The latch is clear, or holds one of the nine codes (10_state.md R37, 60_exceptions.md R241:
codes 10 to 255 are never produced). -/
def LatchOk (l : FaultLatch) : Prop :=
  (l.fault = false ∧ l.fcode = 0 ∧ l.fcmd = 0) ∨
    (l.fault = true ∧ 1 ≤ l.fcode.toNat ∧ l.fcode.toNat ≤ 9)

/-- A valid context's preset is not OFF, its knobs are in range, and its table is total on the codes
(10_state.md R40, 42_filter_init.md R184, R186). -/
def ContextOk (c : Config) (k : Kind) (x : FilterContext) : Prop :=
  x.preset ≠ .off ∧ KnobsInRange c x.knobs ∧ x.lut.length = 2 ^ (c.kind k).sampleBits

/-- While SS is invalid its words read 0 (10_state.md R46). -/
def ScalerOk (v : ScalerState) : Prop :=
  v.valid = false →
    v.xscale = 0 ∧ v.yscale = 0 ∧ v.xshift = 0 ∧ v.yshift = 0 ∧ v.intdbl = false

/-- OUTW_RES holds a width and that width rounded down to a multiple of 4 (10_state.md R42). -/
def WidthsOk (v : Word) : Prop := bits v 31 16 = bits v 15 0 / 4 * 4

/-- What every step keeps. -/
structure State.Inv (s : State) : Prop where
  config : s.cfg.Valid
  dstCanonical : Memory.wf s.dst
  dstInside : ∀ cell ∈ s.dst, cell.1 < s.cfg.dstMemBytes
  srcCanonical : Cells.Canonical s.src
  srcInside : ∀ cell ∈ s.src, cell.1 < 2048
  latch : LatchOk s.latch
  contexts : ∀ (k : Kind) (x : FilterContext), s.ctx k = some x → ContextOk s.cfg k x
  scaler : ScalerOk s.ss
  widths : WidthsOk s.outwRes

end Sys2Proof.Machine
end

