-- ==== Sys2Proof/Certificates/Slice0/Obligations.lean ====
section
/-! DEFINITION. The statements for the provers. They quantify over every state, hence over every
configuration (`State.cfg`, log 1) and every filter model (the uninterpreted constants, log 2). -/

open Sys2Proof Sys2Proof.Machine

/-! ## Words the statements use -/

/-- The illegal words: (a) an opcode 6 to 15, (b) a reserved bit of the opcode's format set, (c) a
FINIT word with PRESET 5 to 7 (30_encoding.md R121, formats R111). -/
def Sys2Proof.Statement.IllegalWord (c : Word) : Prop :=
  6 ≤ bits c 31 28 ∨
  (bits c 31 28 = 0 ∧ bits c 27 0 ≠ 0) ∨ (bits c 31 28 = 1 ∧ bits c 26 3 ≠ 0) ∨
  (bits c 31 28 = 2 ∧ bits c 26 0 ≠ 0) ∨ (bits c 31 28 = 3 ∧ bits c 15 0 ≠ 0) ∨
  (bits c 31 28 = 4 ∧ bits c 15 10 ≠ 0) ∨ (bits c 31 28 = 5 ∧ bits c 27 0 ≠ 0) ∨
  (bits c 31 28 = 1 ∧ 5 ≤ bits c 2 0)

/-- The kind a command names, if it names one (30_encoding.md R111). -/
def Sys2Proof.Statement.namedKind : Instr → Option Kind
  | .nop => none
  | .finit k _ => some k
  | .ffree k => some k
  | .outw k _ => some k
  | .blit k _ _ => some k
  | .resolve => none

/-- The block is live and the host's next access is `e`, with `rest` after it (the queue of pending
accesses is the model's own, log 3). -/
def Sys2Proof.Statement.NextAccess (s : State) (e : HostEvent) (rest : List HostEvent) : Prop :=
  s.cfg.Valid ∧ s.latch.fault = false ∧ s.host.pending = e :: rest

/-- The conditions under which no check of 43_filter_blit.md R209 fails, in the words of its table
(check 1 is the decoder's). -/
def Sys2Proof.Statement.BlitReady (k : Kind) (w line : Nat) (s : State) : Prop :=
  (s.ctx k).isSome = true ∧ (s.cfg.kind k).inChunk ≤ w ∧ w ≤ 2047 ∧
  line < s.regs.dstLines.toNat ∧ s.regs.dstPitch.toNat ≠ 0 ∧
  s.regs.dstBase.toNat % (16 * s.cfg.texelBytes) = 0 ∧
  texelAddr s.cfg s.regs
      (min ((w / (s.cfg.kind k).inChunk + 1) * (s.cfg.kind k).outChunk)
        (4 * s.regs.dstPitch.toNat) - 1) line + s.cfg.texelBytes - 1 < s.cfg.dstMemBytes ∧
  ∀ i < w, srcWritten s.src i = true

/-- The map of 10_state.md R34 as the spec writes it, offset, register and access, but for the
LINEBUF window. -/
def Sys2Proof.Statement.registerTable : List (Word × Reg × Access) :=
  [(0x0000, .cmd, .wo), (0x0004, .status, .ro), (0x0008, .faultInfo, .ro),
   (0x000C, .faultCmd, .ro), (0x0010, .knobSharpness, .rw), (0x0014, .knobResolution, .rw),
   (0x0018, .knobArtifacts, .rw), (0x001C, .knobFringing, .rw), (0x0020, .knobBleed, .rw),
   (0x0024, .dstBase, .rw), (0x0028, .dstPitch, .rw), (0x002C, .dstLines, .rw),
   (0x0030, .outwRes, .ro), (0x0040, .rsWidth, .rw), (0x0044, .rsHeight, .rw),
   (0x0048, .rsCtrl, .rw), (0x004C, .rsUserX, .rw), (0x0050, .rsUserY, .rw),
   (0x0054, .rsXShift, .rw), (0x0058, .rsYShift, .rw), (0x0060, .scXScale, .ro),
   (0x0064, .scYScale, .ro), (0x0068, .scXShift, .ro), (0x006C, .scYShift, .ro)]

open Sys2Proof.Statement

/-! ## Encoding -/

/-- 30_encoding.md R113: the worked encodings, read both ways. -/
def Obligations.WorkedEncodings : Prop :=
  ∀ p ∈ ([(0x00000000, .nop), (0x10000001, .finit .lr .composite), (0x18000004, .finit .hr .custom),
      (0x10000000, .finit .lr .off), (0x20000000, .ffree .lr), (0x28000000, .ffree .hr),
      (0x31000000, .outw .lr 256), (0x39400000, .outw .hr 320), (0x40050005, .blit .lr 5 5),
      (0x494000DF, .blit .hr 320 223), (0x50000000, .resolve)] : List (Word × Instr)),
    decode p.1 = .ok p.2 ∧ encode p.2 = p.1

/-- Decoding the encoding of any well-formed command gives it back, every operand at every value its
field admits (30_encoding.md R111, R112, R120). -/
def Obligations.DecodeOfEncode : Prop :=
  ∀ i : Instr, i.wf = true → decode (encode i) = .ok i

/-- A legal word is the encoding of the command it decodes to, and that command is well formed: no
bit of a legal word is dropped (30_encoding.md R111, R122). -/
def Obligations.EncodeOfDecode : Prop :=
  ∀ (c : Word) (i : Instr), decode c = .ok i → i.wf = true ∧ encode i = c

/-- 30_encoding.md R112: the match and mask columns of the six commands, and the opcodes 0x6 to 0xF
illegal. -/
def Obligations.OpcodeMapDecides : Prop :=
  ∀ c : Word,
    (decode c = .ok .nop ↔ c &&& 0xFFFFFFFF = 0x00000000) ∧
    ((∃ k p, decode c = .ok (.finit k p)) ↔ c &&& 0xF7FFFFF8 = 0x10000000 ∧ bits c 2 0 ≤ 4) ∧
    ((∃ k, decode c = .ok (.ffree k)) ↔ c &&& 0xF7FFFFFF = 0x20000000) ∧
    ((∃ k w, decode c = .ok (.outw k w)) ↔ c &&& 0xF000FFFF = 0x30000000) ∧
    ((∃ k w line, decode c = .ok (.blit k w line)) ↔ c &&& 0xF000FC00 = 0x40000000) ∧
    (decode c = .ok .resolve ↔ c &&& 0xFFFFFFFF = 0x50000000) ∧
    (6 ≤ bits c 31 28 → decode c = .error .opcode)

/-- The operands of a legal word: K = c[27], W = c[26:16], LINE = c[9:0], PRESET = c[2:0] by the
codes of 30_encoding.md R118 (R120). -/
def Obligations.DecodedOperands : Prop :=
  ∀ c : Word,
    (∀ k p, decode c = .ok (.finit k p) →
      (k = .lr ↔ bits c 27 27 = 0) ∧ (k = .hr ↔ bits c 27 27 = 1) ∧
      (p, bits c 2 0) ∈ [(Preset.off, 0), (.composite, 1), (.svideo, 2), (.rgb, 3), (.custom, 4)]) ∧
    (∀ k, decode c = .ok (.ffree k) →
      (k = .lr ↔ bits c 27 27 = 0) ∧ (k = .hr ↔ bits c 27 27 = 1)) ∧
    (∀ k w, decode c = .ok (.outw k w) →
      (k = .lr ↔ bits c 27 27 = 0) ∧ (k = .hr ↔ bits c 27 27 = 1) ∧ w = bits c 26 16) ∧
    (∀ k w line, decode c = .ok (.blit k w line) →
      (k = .lr ↔ bits c 27 27 = 0) ∧ (k = .hr ↔ bits c 27 27 = 1) ∧ w = bits c 26 16 ∧
      line = bits c 9 0)

/-- Every word is a command or illegal, and the illegal words are exactly those of
30_encoding.md R121 (R122). -/
def Obligations.IllegalWordsAreRejected : Prop :=
  ∀ c : Word, (∃ e, decode c = .error e) ↔ IllegalWord c

/-! ## The step -/

/-- A step whose next host access writes the word of a command to CMD is `exec` of that command,
with the access taken off the queue; and so is the step of a state prepared with `withFetchWord`
(10_state.md R35, 40_host_access_and_nop.md R141; the queue is the model's own, log 3). -/
def Obligations.StepRunsDecodedCommand : Prop :=
  (∀ (s : State) (c : Word) (i : Instr) (rest : List HostEvent),
    NextAccess s (.write 0 4 c) rest → decode c = .ok i → step s = exec i (s.setPending rest)) ∧
  (∀ (s : State) (nbits w : Nat) (i : Instr), s.cfg.Valid → s.latch.fault = false →
    decodeTableWord nbits w = some i → step (s.withFetchWord nbits w) = exec i s)

/-- 30_encoding.md R121: an illegal word written to CMD raises E_ILLCMD, with the word in FCMD, and
has no other effect. -/
def Obligations.IllegalWordRaisesIllCmd : Prop :=
  ∀ (s : State) (c : Word) (rest : List HostEvent),
    NextAccess s (.write 0 4 c) rest → IllegalWord c →
      step s = .next ((s.setPending rest).setLatch { fault := true, fcode := 1, fcmd := c })

/-- 10_state.md R53: while FAULT = 1 no host write has any effect, reads behave as usual, and only
reset leaves the frozen state. -/
def Obligations.FrozenBlockIgnoresWrites : Prop :=
  ∀ (s : State) (rest : List HostEvent), s.cfg.Valid → s.latch.fault = true →
    (∀ off size v, s.host.pending = .write off size v :: rest →
      step s = .next (s.setPending rest)) ∧
    (∀ r, regNamed r = true → s.host.pending = .read r.offset 4 :: rest →
      step s = .next ((s.setPending rest).logRead (readReg s r))) ∧
    (∀ e t, s.host.pending = e :: rest → e ≠ .rst → step s = .next t → t.latch.fault = true) ∧
    (∀ t, s.host.pending = .rst :: rest → step s = .next t → t.latch.fault = false)

/-- 60_exceptions.md R248: only reset clears the latch, and faults do not nest: while FAULT = 1 a
write does nothing, an illegal read returns 0 without raising, and FCODE and FCMD keep the first
fault. -/
def Obligations.FirstFaultIsKept : Prop :=
  ∀ (s t : State) (e : HostEvent) (rest : List HostEvent),
    s.latch.fault = true → s.host.pending = e :: rest → step s = .next t →
    (e ≠ .rst → t.latch = s.latch) ∧
    (∀ off size v, e = .write off size v → t = s.setPending rest) ∧
    (∀ off size, e = .read off size → regAt off size = none →
      t = (s.setPending rest).logRead 0) ∧
    (e = .rst → t.latch = { fault := false, fcode := 0, fcmd := 0 })

/-- 60_exceptions.md R246: an access that raises a fault sets FAULT, FCODE and FCMD and has no other
effect: the state is the state before the access plus the latch; a faulting read returns 0; FCMD is
the command word, or the byte offset for E_BUS (code 2, 10_state.md R37). -/
def Obligations.FaultsArePrecise : Prop :=
  ∀ (s t : State) (e : HostEvent) (rest : List HostEvent),
    NextAccess s e rest → step s = .next t → t.latch.fault = true →
    (1 ≤ t.latch.fcode.toNat ∧ t.latch.fcode.toNat ≤ 9) ∧
    ((∃ off size v, e = .write off size v ∧ t = (s.setPending rest).setLatch t.latch ∧
        ((t.latch.fcode = 2 ∧ t.latch.fcmd = off) ∨ (t.latch.fcode ≠ 2 ∧ t.latch.fcmd = v))) ∨
      ∃ off size, e = .read off size ∧ t = ((s.setPending rest).setLatch t.latch).logRead 0 ∧
        t.latch.fcode = 2 ∧ t.latch.fcmd = off)

/-- 40_host_access_and_nop.md R140: a 32-bit read at the offset of a register returns the register's
value (0 for a write-only one) and changes no state; any other read returns 0 and, if FAULT = 0,
raises E_BUS(off). -/
def Obligations.HostReadAnswers : Prop :=
  ∀ (s : State) (off : Word) (size : Nat) (rest : List HostEvent),
    s.cfg.Valid → s.host.pending = .read off size :: rest →
    (∀ r, regNamed r = true → size = 4 → off = r.offset →
      step s = .next ((s.setPending rest).logRead (readReg s r)) ∧
      (r.access = .wo → readReg s r = 0)) ∧
    ((¬∃ r, regNamed r = true ∧ size = 4 ∧ off = r.offset) →
      (s.latch.fault = true → step s = .next ((s.setPending rest).logRead 0)) ∧
      (s.latch.fault = false →
        step s = .next
          (((s.setPending rest).setLatch { fault := true, fcode := 2, fcmd := off }).logRead 0)))

/-- The mapped offsets: every register of the map 10_state.md R34, written out as `registerTable`,
and LINEBUF[i] at 0x1000 + 4*i, is reached at its offset and has its access; every register is one
of these; and an access is legal exactly when it is 32 bits wide, at a multiple of 4, and not in the gaps of
40_host_access_and_nop.md R142 (a). -/
def Obligations.MappedOffsets : Prop :=
  (∀ e ∈ registerTable,
    regAt e.1 4 = some e.2.1 ∧ e.2.1.offset = e.1 ∧ e.2.1.access = e.2.2 ∧
      regNamed e.2.1 = true) ∧
  (∀ i ≤ 2047, regAt (BitVec.ofNat 32 (0x1000 + 4 * i)) 4 = some (.lineBuf i) ∧
    (Reg.lineBuf i).offset = BitVec.ofNat 32 (0x1000 + 4 * i) ∧ (Reg.lineBuf i).access = .wo) ∧
  (∀ r, regNamed r = true →
    (∃ e ∈ registerTable, e.2.1 = r) ∨ ∃ i ≤ 2047, r = .lineBuf i) ∧
  ∀ (off : Word) (size : Nat),
    (regAt off size).isSome = true ↔
      size = 4 ∧ off.toNat % 4 = 0 ∧
      (off.toNat ≤ 0x30 ∨ (0x40 ≤ off.toNat ∧ off.toNat ≤ 0x58) ∨
        (0x60 ≤ off.toNat ∧ off.toNat ≤ 0x6C) ∨ (0x1000 ≤ off.toNat ∧ off.toNat ≤ 0x2FFC))

/-- A live block takes E_BUS(off) on an illegal write, and a write to a read-only register has no
effect (40_host_access_and_nop.md R141, R142). -/
def Obligations.IllegalAndReadOnlyWrites : Prop :=
  ∀ (s : State) (off : Word) (size : Nat) (v : Word) (rest : List HostEvent),
    NextAccess s (.write off size v) rest →
    ((¬∃ r, regNamed r = true ∧ size = 4 ∧ off = r.offset) →
      step s = .next ((s.setPending rest).setLatch { fault := true, fcode := 2, fcmd := off })) ∧
    (∀ r : Reg, r.access = .ro → size = 4 → off = r.offset → step s = .next (s.setPending rest))

/-- 10_state.md R47: a write of `v` to LINEBUF[i] sets SRC[i] to v[15:0] and SRCV[i] to 1 and changes
nothing else; a read returns 0 and changes nothing. -/
def Obligations.LinebufWriteStoresSample : Prop :=
  ∀ (s : State) (i : Nat) (v : Word) (rest : List HostEvent), i ≤ 2047 →
    (NextAccess s (.write (BitVec.ofNat 32 (0x1000 + 4 * i)) 4 v) rest →
      ∃ t, step s = .next t ∧ t = (s.setPending rest).setSrc t.src ∧
        Cells.get? t.src i = some (v.setWidth 16) ∧ srcWritten t.src i = true ∧
        ∀ j, j ≠ i → Cells.get? t.src j = Cells.get? s.src j) ∧
    (s.cfg.Valid → s.host.pending = .read (BitVec.ofNat 32 (0x1000 + 4 * i)) 4 :: rest →
      step s = .next ((s.setPending rest).logRead 0))

/-- A write to a read-write register stores the bits its rule names and nothing else: the register
reads back those bits of the word and 0 elsewhere, and every other register, the contexts, SS, the
line buffer, the latch, CLIPPED and DST are unchanged (10_state.md R48, R38, R39, R43, R44, R45;
40_host_access_and_nop.md R141). -/
def Obligations.RegisterWriteReadsBack : Prop :=
  ∀ (s : State) (r : Reg) (mask v : Word) (rest : List HostEvent),
    (r, mask) ∈ [(Reg.knobSharpness, (0xFFFF : Word)), (.knobResolution, 0xFFFF),
      (.knobArtifacts, 0xFFFF), (.knobFringing, 0xFFFF), (.knobBleed, 0xFFFF),
      (.dstBase, 0xFFFFFFFF), (.dstPitch, 0xFFF), (.dstLines, 0x7FF), (.rsWidth, 0xFFFF),
      (.rsHeight, 0xFFFF), (.rsCtrl, 0x7FF), (.rsUserX, 0xFFFF), (.rsUserY, 0xFFFF),
      (.rsXShift, 0xFFFF), (.rsYShift, 0xFFFF)] →
    NextAccess s (.write r.offset 4 v) rest →
    ∃ t, step s = .next t ∧ t = (s.setPending rest).setRegs t.regs ∧
      readReg t r = v &&& mask ∧ ∀ r', r' ≠ r → readReg t r' = readReg s r'

/-- What the read-only views show: STATUS bits 0 to 5 are FAULT, CTXV_LR, CTXV_HR, SCV, INTDBL,
CLIPPED and the rest 0 (10_state.md R36); FAULTINFO[7:0] is FCODE and the rest 0, FAULTCMD is FCMD
(R37); OUTW_RES reads the word OUTW wrote (R42); SC_* are the words of SS (R46). -/
def Obligations.StatusAndFaultViews : Prop :=
  ∀ s : State,
    bits (readReg s .status) 0 0 = s.latch.fault.toNat ∧
    bits (readReg s .status) 1 1 = (s.ctx .lr).isSome.toNat ∧
    bits (readReg s .status) 2 2 = (s.ctx .hr).isSome.toNat ∧
    bits (readReg s .status) 3 3 = s.ss.valid.toNat ∧
    bits (readReg s .status) 4 4 = s.ss.intdbl.toNat ∧
    bits (readReg s .status) 5 5 = s.clipped.toNat ∧
    bits (readReg s .status) 31 6 = 0 ∧
    bits (readReg s .faultInfo) 7 0 = s.latch.fcode.toNat ∧
    bits (readReg s .faultInfo) 31 8 = 0 ∧
    readReg s .faultCmd = s.latch.fcmd ∧
    readReg s .outwRes = s.outwRes ∧
    readReg s .scXScale = s.ss.xscale ∧ readReg s .scYScale = s.ss.yscale ∧
    readReg s .scXShift = s.ss.xshift ∧ readReg s .scYShift = s.ss.yshift

/-- Each step makes exactly the host's next access: the queue loses its head, only a read returns a
value, and with nothing pending nothing changes (10_state.md R31; the queue and the idle step are
the model's own, log 3 and log 4). -/
def Obligations.EveryStepTakesOneAccess : Prop :=
  ∀ s t : State, step s = .next t →
    (s.host.pending = [] → t = s) ∧
    ∀ e rest, s.host.pending = e :: rest →
      t.host.pending = rest ∧ t.cfg = s.cfg ∧
      ((∃ off size, e = .read off size) → ∃ v, t.host.reads = s.host.reads ++ [v]) ∧
      ((¬∃ off size, e = .read off size) → t.host.reads = s.host.reads)

/-! ## Reset -/

/-- 10_state.md R50: the values after reset. The last clause, that no byte of DST is listed, is the
model's own form (log 5, DESIGN CHOICE) of R50's 'its content before the first write to a byte is
unspecified'. -/
def Obligations.ResetValues : Prop :=
  State.reset.regs.knobs = { sharpness := 0, resolution := 0, artifacts := 0, fringing := 0, bleed := 0 } ∧
  State.reset.regs.dstBase = 0 ∧ State.reset.regs.dstPitch = 0 ∧ State.reset.regs.dstLines = 0 ∧
  State.reset.regs.rsWidth = 0 ∧ State.reset.regs.rsHeight = 0 ∧ State.reset.regs.rsCtrl = 0 ∧
  State.reset.regs.rsUserX = 0 ∧ State.reset.regs.rsUserY = 0 ∧ State.reset.regs.rsXShift = 0 ∧
  State.reset.regs.rsYShift = 0 ∧
  (∀ k, State.reset.ctx k = none) ∧
  State.reset.ss =
    { valid := false, xscale := 0, yscale := 0, xshift := 0, yshift := 0, intdbl := false } ∧
  (∀ i, srcWritten State.reset.src i = false) ∧
  State.reset.latch = { fault := false, fcode := 0, fcmd := 0 } ∧
  State.reset.clipped = false ∧ State.reset.outwRes = 0 ∧
  ∀ a, Memory.read? State.reset.dst a = none

/-- The reset input gives every piece of the block's state its reset value, from any state, frozen
or not, and leaves every byte of DST (70_reset_and_hazards.md R270, R272); the configuration and the
host are outside the block (`rst` as one event of the host's queue is the model's own, log 9). -/
def Obligations.ResetFromAnyState : Prop :=
  ∀ (s : State) (rest : List HostEvent), s.cfg.Valid → s.host.pending = .rst :: rest →
    ∃ t, step s = .next t ∧ t.regs = State.reset.regs ∧ (∀ k, t.ctx k = none) ∧
      t.ss = State.reset.ss ∧ (∀ i, srcWritten t.src i = false) ∧
      t.latch = { fault := false, fcode := 0, fcmd := 0 } ∧ t.clipped = false ∧ t.outwRes = 0 ∧
      (∀ a, Memory.read? t.dst a = Memory.read? s.dst a) ∧ t.cfg = s.cfg ∧
      t.host = { s.host with pending := rest }

/-! ## NOP -/

/-- 40_host_access_and_nop.md R145: NOP is the word 0 and changes nothing, in a frozen block too;
the words 0x1 to 0x0FFFFFFF are not NOP but illegal and raise E_ILLCMD; after reset it leaves
STATUS 0. -/
def Obligations.NopDoesNothing : Prop :=
  encode .nop = 0x00000000 ∧ (∀ s : State, exec .nop s = .next s) ∧
  (∀ (s : State) (c : Word) (rest : List HostEvent), NextAccess s (.write 0 4 c) rest →
    1 ≤ c.toNat → c.toNat ≤ 0x0FFFFFFF →
      step s = .next ((s.setPending rest).setLatch { fault := true, fcode := 1, fcmd := c })) ∧
  ∃ t, exec .nop State.reset = .next t ∧ readReg t .status = 0

/-! ## FINIT and FFREE -/

/-- FINIT with a preset other than OFF replaces CTX[k]: the preset, the five staged knobs each
clamped to KMIN(i)..KMAX(i), and the table LutGen(k, eff, kn), eff being CUSTOM for RGB under
RGB_FALLTHROUGH(k); nothing else changes (42_filter_init.md R181, R184, R185, R186). The table's
values are the uninterpreted LutGen (log 2). -/
def Obligations.FinitBuildsContext : Prop :=
  ∀ (k : Kind) (p : Preset) (s : State), s.latch.fault = false → p ≠ .off →
    ∃ x, exec (.finit k p) s = .next (s.setCtx k (some x)) ∧ x.preset = p ∧
      (let cl := fun (v lo hi : Int) => if v < lo then lo else if v > hi then hi else v
       x.knobs =
        { sharpness := cl s.regs.knobs.sharpness.toInt s.cfg.kmin.sharpness s.cfg.kmax.sharpness
          resolution := cl s.regs.knobs.resolution.toInt s.cfg.kmin.resolution s.cfg.kmax.resolution
          artifacts := cl s.regs.knobs.artifacts.toInt s.cfg.kmin.artifacts s.cfg.kmax.artifacts
          fringing := cl s.regs.knobs.fringing.toInt s.cfg.kmin.fringing s.cfg.kmax.fringing
          bleed := cl s.regs.knobs.bleed.toInt s.cfg.kmin.bleed s.cfg.kmax.bleed }) ∧
      x.lut.length = 2 ^ (s.cfg.kind k).sampleBits ∧
      ∀ v, v < 2 ^ (s.cfg.kind k).sampleBits →
        lutAt x.lut v =
          (if p = .custom ∨ (p = .rgb ∧ (s.cfg.kind k).rgbFallthrough = true)
            then Config.lutCustom k x.knobs v else Config.lutNamed k p v)

/-- 42_filter_init.md R182: FINIT OFF releases CTX[k] exactly as FFREE does. -/
def Obligations.FinitOffReleases : Prop :=
  ∀ (k : Kind) (s : State),
    exec (.finit k .off) s = exec (.ffree k) s ∧
    (s.latch.fault = false → ∃ t, exec (.finit k .off) s = .next t ∧ t.ctx k = none)

/-- FFREE makes CTX[k] invalid and its STATUS bit 0; nothing else changes; on an invalid context it
changes nothing (42_filter_init.md R190). -/
def Obligations.FfreeReleases : Prop :=
  ∀ (k : Kind) (s : State), s.latch.fault = false →
    ∃ t, exec (.ffree k) s = .next t ∧ t = s.setCtx k none ∧
      (match k with
        | .lr => bits (readReg t .status) 1 1 = 0
        | .hr => bits (readReg t .status) 2 2 = 0) ∧
      (s.ctx k = none → t = s)

/-- 42_filter_init.md R183: FINIT replaces every field of CTX[k] at once, whatever the context held
before, and touches nothing else; FFREE likewise (R190). This is their frame. -/
def Obligations.FinitAndFfreeFrame : Prop :=
  ∀ (k : Kind) (i : Instr) (s t : State), (i = .ffree k ∨ ∃ p, i = .finit k p) →
    exec i s = .next t →
    (∀ k', k' ≠ k → t.ctx k' = s.ctx k') ∧ t.regs = s.regs ∧ t.ss = s.ss ∧ t.src = s.src ∧
    t.latch = s.latch ∧ t.clipped = s.clipped ∧ t.outwRes = s.outwRes ∧ t.cfg = s.cfg ∧
    t.host = s.host ∧ (∀ a, Memory.read? t.dst a = Memory.read? s.dst a) ∧
    (s.latch.fault = false → ∀ c, exec i (s.setCtx k c) = .next t)

/-- Two FINITs of one kind with the same effective preset and, for CUSTOM, the same clamped knobs
build equal tables, whatever else the two states hold (42_filter_init.md R186). -/
def Obligations.TableDependsOnItsArguments : Prop :=
  ∀ (k : Kind) (p p' : Preset) (s s' t t' : State),
    s.cfg = s'.cfg → s.latch.fault = false → s'.latch.fault = false → p ≠ .off → p' ≠ .off →
    effectivePreset (s.cfg.kind k) p = effectivePreset (s.cfg.kind k) p' →
    (effectivePreset (s.cfg.kind k) p = .custom →
      clampedKnobs s.cfg s.regs.knobs = clampedKnobs s'.cfg s'.regs.knobs) →
    exec (.finit k p) s = .next t → exec (.finit k p') s' = .next t' →
    (t.ctx k).map (·.lut) = (t'.ctx k).map (·.lut)

/-- With RGB_FALLTHROUGH(k), FINIT RGB and FINIT CUSTOM leave states that differ in the recorded
preset alone (42_filter_init.md R185, R192 (f)). -/
def Obligations.RgbFallsThroughToCustom : Prop :=
  ∀ (k : Kind) (s t u : State), s.latch.fault = false → (s.cfg.kind k).rgbFallthrough = true →
    exec (.finit k .rgb) s = .next t → exec (.finit k .custom) s = .next u →
    ∃ x, u.ctx k = some x ∧ x.preset = .custom ∧ t = u.setCtx k (some { x with preset := .rgb })

/-- A repeated FINIT with the same arguments, and a repeated RESOLVE, change nothing
(42_filter_init.md R192 (d), 41_scaler_resolve.md R168). -/
def Obligations.RepeatingChangesNothing : Prop :=
  ∀ (s t : State) (i : Instr), (i = .resolve ∨ ∃ k p, i = .finit k p) →
    exec i s = .next t → exec i t = .next t

/-! ## OUTW -/

/-- 43_filter_blit.md R203: OUTW in the width domain writes OUTW_RES = RW, OW (bits 31:16 and 15:0,
neither truncated) and nothing else; for W < IN(k) it raises E_WIDTH with the command word; a word
of opcode 3 with a reserved bit set raises E_ILLCMD. -/
def Obligations.OutwWritesBothWidths : Prop :=
  (∀ (k : Kind) (w : Nat) (s : State),
    s.cfg.Valid → s.latch.fault = false → w ≤ 2047 →
    ((s.cfg.kind k).inChunk ≤ w →
      ∃ t, exec (.outw k w) s = .next t ∧ t = s.setOutwRes t.outwRes ∧
        bits t.outwRes 15 0 = (w / (s.cfg.kind k).inChunk + 1) * (s.cfg.kind k).outChunk ∧
        bits t.outwRes 31 16 =
          (w / (s.cfg.kind k).inChunk + 1) * (s.cfg.kind k).outChunk / 4 * 4) ∧
    (w < (s.cfg.kind k).inChunk →
      exec (.outw k w) s =
        .next (s.setLatch { fault := true, fcode := 4, fcmd := encode (.outw k w) }))) ∧
  ∀ (s : State) (c : Word) (rest : List HostEvent), NextAccess s (.write 0 4 c) rest →
    bits c 31 28 = 3 → bits c 15 0 ≠ 0 →
      step s = .next ((s.setPending rest).setLatch { fault := true, fcode := 1, fcmd := c })

/-- 43_filter_blit.md R222: a width of one chunk, and of one chunk and one extra sample, are in the
domain and give 2*OUT(k) pixels (3*OUT(k) for one extra sample when IN(k) = 1). -/
def Obligations.BoundaryWidths : Prop :=
  ∀ q : KindParams, q.Valid →
    widthValid q q.inChunk = true ∧ widthValid q (q.inChunk + 1) = true ∧
    chunks q q.inChunk = 1 ∧ extras q q.inChunk = 0 ∧ outputWidth q q.inChunk = 2 * q.outChunk ∧
    (2 ≤ q.inChunk → chunks q (q.inChunk + 1) = 1 ∧ extras q (q.inChunk + 1) = 1 ∧
      outputWidth q (q.inChunk + 1) = 2 * q.outChunk) ∧
    (q.inChunk = 1 → chunks q (q.inChunk + 1) = 2 ∧ extras q (q.inChunk + 1) = 0 ∧
      outputWidth q (q.inChunk + 1) = 3 * q.outChunk)

/-! ## BLIT -/

/-- BLIT completes whenever no check of 43_filter_blit.md R209 fails: each of the first
NW = min(OW, 4*DST_PITCH) pixels is found at TexelAddr(j, LINE), most significant byte first; every
other byte of DST reads as before; CLIPPED says whether OW > 4*DST_PITCH; nothing else changes
(R208, R213, R215, R216, R218; 20_memory.md R86). The texel is Mix(k, LINE, j mod OUT(k), win), win
being the TAPS(k) entries lut(V(nn(j)-TAPS(k)+1+t)), oldest first, nn(j) = (j div OUT(k))*IN(k) +
LEAD(k, j mod OUT(k)), V the row's codes SRC[i][SAMPLE_BITS(k)-1:0] between border codes 0
(R205, R210, R211; 20_memory.md R83). It is the low 8*TEXEL_BYTES bits of the word of the
uninterpreted Mix (log 2); that a table or LEAD has a value beyond its last entry is the model's
choice, which no phase and, under the invariant of `State.Inv`, no code reaches (log 12). -/
def Obligations.BlitStoresRow : Prop :=
  ∀ (k : Kind) (w line : Nat) (s : State),
    s.cfg.Valid → s.latch.fault = false → BlitReady k w line s →
    ∃ t, exec (.blit k w line) s = .next t ∧ t = s.setRow t.dst t.clipped ∧
      (let q := s.cfg.kind k
       let n := s.cfg.texelBytes
       let nw := min ((w / q.inChunk + 1) * q.outChunk) (4 * s.regs.dstPitch.toNat)
       let r : Int := (w % q.inChunk : Nat)
       let nn : Nat → Int := fun j =>
         (j / q.outChunk * q.inChunk + q.lead.getD (j % q.outChunk) 0 : Nat)
       let v : Int → Nat := fun pos =>
         if pos < -r ∨ (w / q.inChunk * q.inChunk : Nat) ≤ pos then 0
         else ((Cells.get? s.src (pos + r).toNat).getD 0).toNat % 2 ^ q.sampleBits
       t.clipped = decide (4 * s.regs.dstPitch.toNat < (w / q.inChunk + 1) * q.outChunk) ∧
       (∀ x, s.ctx k = some x → ∀ j < nw, ∀ b < n,
        ∃ byte, Memory.read? t.dst (texelAddr s.cfg s.regs j line + b) = some byte ∧
          byte.toNat = bits
            (Config.mix k line (j % q.outChunk)
              ((List.range q.taps).map fun i : Nat => lutAt x.lut (v (nn j - q.taps + 1 + (i : Int)))))
            (8 * (n - 1 - b) + 7) (8 * (n - 1 - b))) ∧
       ∀ a, (∀ j < nw, ∀ b < n, a ≠ texelAddr s.cfg s.regs j line + b) →
        Memory.read? t.dst a = Memory.read? s.dst a)

/-- BLIT's frame, whether it completes, faults or is ignored: the registers, the contexts, SS, the
line buffer, OUTW_RES, the configuration and the host are unchanged, and every byte of DST outside
the texels of pixels j < NW of row LINE reads as before; a BLIT that faults changes no flag but the
latch and no byte (43_filter_blit.md R208, R209). -/
def Obligations.BlitFrame : Prop :=
  ∀ (k : Kind) (w line : Nat) (s t : State), exec (.blit k w line) s = .next t →
    t.regs = s.regs ∧ (∀ k', t.ctx k' = s.ctx k') ∧ t.ss = s.ss ∧ t.src = s.src ∧
    t.outwRes = s.outwRes ∧ t.cfg = s.cfg ∧ t.host = s.host ∧
    (∀ a, (∀ j < storedWidth (s.cfg.kind k) s.regs w,
        ¬(texelAddr s.cfg s.regs j line ≤ a ∧
          a < texelAddr s.cfg s.regs j line + s.cfg.texelBytes)) →
      Memory.read? t.dst a = Memory.read? s.dst a) ∧
    (t.latch.fault = true → t.clipped = s.clipped ∧
      ∀ a, Memory.read? t.dst a = Memory.read? s.dst a) ∧
    (t.latch.fault = false → t.latch = s.latch)

/-- 43_filter_blit.md R209: the checks in order; each fault is raised when its condition fails and
those before it do not, with the command word in FCMD, and the state is otherwise unchanged. Check 1
is the illegal word of opcode 4 with a bit of 15:10 set; check 7 covers every store. -/
def Obligations.BlitChecksInOrder : Prop :=
  (∀ (s : State) (c : Word) (rest : List HostEvent), NextAccess s (.write 0 4 c) rest →
    bits c 31 28 = 4 → bits c 15 10 ≠ 0 →
      step s = .next ((s.setPending rest).setLatch { fault := true, fcode := 1, fcmd := c })) ∧
  (∀ (c : Config) (r : Regs) (x x' y : Nat), x ≤ x' → texelAddr c r x y ≤ texelAddr c r x' y) ∧
  ∀ (k : Kind) (w line : Nat) (s : State), s.latch.fault = false → w ≤ 2047 → line ≤ 1023 →
    (let q := s.cfg.kind k
     let nw := min ((w / q.inChunk + 1) * q.outChunk) (4 * s.regs.dstPitch.toNat)
     let raised := fun (code : Byte) =>
       (.next (s.setLatch { fault := true, fcode := code, fcmd := encode (.blit k w line) }) :
         Host.Outcome State Fault Refusal)
     (s.ctx k = none → exec (.blit k w line) s = raised 3) ∧
     (s.ctx k ≠ none →
      (w < q.inChunk → exec (.blit k w line) s = raised 4) ∧
      (q.inChunk ≤ w →
       (s.regs.dstLines.toNat ≤ line → exec (.blit k w line) s = raised 5) ∧
       (line < s.regs.dstLines.toNat →
        (s.regs.dstPitch = 0 → exec (.blit k w line) s = raised 6) ∧
        (s.regs.dstPitch ≠ 0 →
         (s.regs.dstBase.toNat % (16 * s.cfg.texelBytes) ≠ 0 →
          exec (.blit k w line) s = raised 7) ∧
         (s.regs.dstBase.toNat % (16 * s.cfg.texelBytes) = 0 →
          (s.cfg.dstMemBytes ≤ texelAddr s.cfg s.regs (nw - 1) line + s.cfg.texelBytes - 1 →
            exec (.blit k w line) s = raised 8) ∧
          (texelAddr s.cfg s.regs (nw - 1) line + s.cfg.texelBytes - 1 < s.cfg.dstMemBytes →
            (∃ i < w, srcWritten s.src i = false) → exec (.blit k w line) s = raised 9)))))))

/-- 43_filter_blit.md R216: CLIPPED after a BLIT. -/
def Obligations.ClippedTellsDroppedPixels : Prop :=
  ∀ (k : Kind) (w line : Nat) (s t : State),
    s.latch.fault = false → exec (.blit k w line) s = .next t →
    (t.latch.fault = false →
      (t.clipped = true ↔
        4 * s.regs.dstPitch.toNat < (w / (s.cfg.kind k).inChunk + 1) * (s.cfg.kind k).outChunk)) ∧
    (t.latch.fault = true → t.clipped = s.clipped)

/-- A BLIT to row LINE changes no byte of another row's texels inside the pitch, not even of the
other rows of the same tiles (43_filter_blit.md R214). -/
def Obligations.BlitKeepsOtherRows : Prop :=
  ∀ (k : Kind) (w line x y b : Nat) (s t : State),
    exec (.blit k w line) s = .next t → y ≠ line → x < 4 * s.regs.dstPitch.toNat →
    b < s.cfg.texelBytes →
    Memory.read? t.dst (texelAddr s.cfg s.regs x y + b) =
      Memory.read? s.dst (texelAddr s.cfg s.regs x y + b)

/-- TexelAddr(x, y) = DST_BASE + (ty*DST_PITCH + tx)*TILE_BYTES + (ly*4 + lx)*TEXEL_BYTES with
TILE_BYTES = 16*TEXEL_BYTES: tiles in row-major order, texels in row-major order in a tile. It is
injective in x for a fixed row, and in (x, y) inside the pitch of a surface; in a row it grows by at
least a texel's bytes per column (20_memory.md R87, R89, R90; 43_filter_blit.md R209). -/
def Obligations.TexelAddrInjective : Prop :=
  ∀ (c : Config) (r : Regs), 0 < c.texelBytes →
    (∀ x y, texelAddr c r x y =
      r.dstBase.toNat + (y / 4 * r.dstPitch.toNat + x / 4) * (16 * c.texelBytes) +
        (y % 4 * 4 + x % 4) * c.texelBytes) ∧
    (∀ x x' y, x < x' → texelAddr c r x y + c.texelBytes ≤ texelAddr c r x' y) ∧
    ∀ x y x' y', x < 4 * r.dstPitch.toNat → x' < 4 * r.dstPitch.toNat →
      texelAddr c r x y = texelAddr c r x' y' → x = x' ∧ y = y'

/-- With DST_BASE a multiple of TILE_BYTES every texel store is aligned to TEXEL_BYTES
(20_memory.md R91). -/
def Obligations.TexelStoresAligned : Prop :=
  ∀ (c : Config) (r : Regs) (x y : Nat), c.Valid →
    r.dstBase.toNat % (16 * c.texelBytes) = 0 → texelAddr c r x y % c.texelBytes = 0

/-- 20_memory.md R86: DstWrite stores byte v[8*(n-1-b)+7 : 8*(n-1-b)] at addr + b, and no other
byte. -/
def Obligations.DstWriteIsBigEndian : Prop :=
  ∀ (m : Memory) (addr n : Nat) (v : Word), n = 2 ∨ n = 4 →
    (∀ b < n, ∃ byte, Memory.read? (dstWrite m addr n v) (addr + b) = some byte ∧
      byte.toNat = bits v (8 * (n - 1 - b) + 7) (8 * (n - 1 - b))) ∧
    ∀ a, (∀ b < n, a ≠ addr + b) → Memory.read? (dstWrite m addr n v) a = Memory.read? m a

/-- 43_filter_blit.md R205: the source samples i = 0..W-1 stand at stream positions i - r, which are
exactly the positions from -r up to the end of the last full chunk; every other position is the
border code 0. A sample is bits SAMPLE_BITS(k)-1:0 of its entry (20_memory.md R83). -/
def Obligations.StreamIsTheRow : Prop :=
  ∀ (q : KindParams) (b : LineBuffer) (w : Nat), q.Valid →
    (∀ i < w, stream q b w ((i : Int) - (w % q.inChunk : Nat)) = srcRead q.sampleBits b i) ∧
    (∀ i v, Cells.get? b i = some v → srcRead q.sampleBits b i = v.toNat % 2 ^ q.sampleBits) ∧
    (∀ n : Int, n < -((w % q.inChunk : Nat) : Int) ∨ (w / q.inChunk * q.inChunk : Nat) ≤ n →
      stream q b w n = 0) ∧
    ∀ n : Int, -((w % q.inChunk : Nat) : Int) ≤ n → n < (w / q.inChunk * q.inChunk : Nat) →
      ∃ i < w, n = (i : Int) - (w % q.inChunk : Nat)

/-- The texels a BLIT stores depend on its context's table, SRC[0..W-1], W, LINE, the DST registers
and the configuration alone: two BLITs that agree on these and complete store equal bytes at equal
addresses, whatever SRC beyond the row, the knobs, SS, DST and the rest hold
(43_filter_blit.md R217, R219, R212). -/
def Obligations.BlitDependsOnItsInputs : Prop :=
  ∀ (k : Kind) (w line : Nat) (s s' t t' : State),
    s.cfg = s'.cfg → s.cfg.Valid → ctxLut s k = ctxLut s' k →
    s.regs.dstBase = s'.regs.dstBase → s.regs.dstPitch = s'.regs.dstPitch →
    s.regs.dstLines = s'.regs.dstLines →
    (∀ i < w, Cells.get? s.src i = Cells.get? s'.src i) →
    exec (.blit k w line) s = .next t → exec (.blit k w line) s' = .next t' →
    t.latch.fault = false → t'.latch.fault = false →
    ∀ j < storedWidth (s.cfg.kind k) s.regs w, ∀ b < s.cfg.texelBytes,
      Memory.read? t.dst (texelAddr s.cfg s.regs j line + b) =
        Memory.read? t'.dst (texelAddr s'.cfg s'.regs j line + b)

/-- nn(j) = c*IN(k) + LEAD(k, p) for pixel p of chunk c; it never decreases with j and takes every
value 0..(C+1)*IN(k)-1 (43_filter_blit.md R211). -/
def Obligations.NewestPositionAdvances : Prop :=
  ∀ (q : KindParams) (w : Nat), q.Valid →
    (∀ c p lead, q.lead[p]? = some lead →
      newest q (c * q.outChunk + p) = c * q.inChunk + lead) ∧
    (∀ j j', j ≤ j' → newest q j ≤ newest q j') ∧
    (∀ j < outputWidth q w, newest q j < (w / q.inChunk + 1) * q.inChunk) ∧
    ∀ n < (w / q.inChunk + 1) * q.inChunk, ∃ j < outputWidth q w, newest q j = n

/-- 43_filter_blit.md R220: the output pixels whose window holds source sample i, i < W, are a
non-empty run of consecutive pixels, and the runs' first and last pixels advance in source order. -/
def Obligations.SamplesKeepOrder : Prop :=
  ∀ (q : KindParams) (w : Nat), q.Valid →
    (let inRun := fun (i j : Nat) => j < outputWidth q w ∧
       (i : Int) - (w % q.inChunk : Nat) ≤ newest q j ∧
       (newest q j : Int) ≤ (i : Int) - (w % q.inChunk : Nat) + q.taps - 1
     (∀ i < w, ∃ j, inRun i j) ∧
     (∀ i < w, ∀ j j' j'', inRun i j → inRun i j'' → j ≤ j' → j' ≤ j'' → inRun i j') ∧
     ∀ i i', i < i' → i' < w →
       (∀ j', inRun i' j' → ∃ j ≤ j', inRun i j) ∧ ∀ j, inRun i j → ∃ j' ≥ j, inRun i' j')

/-- 43_filter_blit.md R221, for any filter model that has property SOLID (the premise): in a row
whose W samples all equal v, under artifact-free settings, every interior pixel, and for v = 0 every
pixel, is within TOL of ColorOf(k, v). -/
def Obligations.SolidRowKeepsItsColour : Prop :=
  ∀ (c : Config) (f : FilterModel) (k : Kind) (p : Preset) (kn : Knobs Int) (b : LineBuffer)
      (w line v : Nat),
    c.Valid → Solid c f → p ≠ .off → KnobsInRange c kn → f.artifactFree k p kn = true →
    (c.kind k).inChunk ≤ w → w ≤ 2047 → line ≤ 1023 → v < 2 ^ (c.kind k).sampleBits →
    (∀ i < w, srcRead (c.kind k).sampleBits b i = v) →
    ∀ j < outputWidth (c.kind k) w, Interior (c.kind k) w j ∨ v = 0 →
      WithinTol c
        (pixel f (c.kind k) k
          (buildLut f (c.kind k) k (effectivePreset (c.kind k) p) kn) b w line j)
        (f.colorOf k v)

/-! ## RESOLVE -/

/-- RESOLVE replaces SS by the result of the four steps of 41_scaler_resolve.md R151 and changes
nothing else (R154 to R162, R166, R167). -/
def Obligations.ResolveLatchesResult : Prop :=
  ∀ s : State, s.latch.fault = false →
    (let w : Int := s.regs.rsWidth.toNat
     let h : Int := s.regs.rsHeight.toNat
     let bit := fun (n : Nat) => s.regs.rsCtrl.getLsbD n
     let cal := fun (pal : Bool) => ((if pal then s.cfg.ycal50 else s.cfg.ycal60 : Nat) : Int)
     let ys1 : Int := h / 2
     let ratio : Int :=
       (if bit 3 then (if bit 4 then s.cfg.xsCal.hwbWide else s.cfg.xsCal.hwbNarrow)
        else (if bit 4 then s.cfg.xsCal.simWide else s.cfg.xsCal.simNarrow) : Nat)
     let xsOrig : Int := if bit 1 then ratio * 3 / 4 else ratio
     let ysOrig : Int := if bit 5 ≠ bit 6 then ys1 * cal (bit 6) / cal (bit 5) else ys1
     let xsMan : Int :=
       (if bit 10 && !bit 3 then 320 else if bit 4 then w else w * 320 / 256) +
         s.regs.rsUserX.toInt
     let ysMan : Int := (if bit 10 && !bit 2 then 112 else ys1) + s.regs.rsUserY.toInt
     let xs : Int := if bit 0 then xsOrig else xsMan
     let ys : Int := (if bit 0 then ysOrig else ysMan) * (if bit 7 then 2 else 1)
     exec .resolve s = .next (s.setSs
      { valid := true
        xscale := BitVec.ofInt 32 xs
        yscale := BitVec.ofInt 32 ys
        xshift := BitVec.ofInt 32 s.regs.rsXShift.toInt
        yshift := BitVec.ofInt 32 s.regs.rsYShift.toInt
        intdbl := decide (w ≤ 320) && !bit 8 && !bit 9 && decide (2 * w ≤ 720) }))

/-- 41_scaler_resolve.md R163: every scale and shift fits signed 32 bits, within the bounds the rule
gives, so the words RESOLVE latches are the unbounded results. -/
def Obligations.ResolveNeverOverflows : Prop :=
  ∀ s t : State, s.cfg.Valid → s.latch.fault = false → exec .resolve s = .next t →
    (let x := resolveInputs s.regs
     t.ss.xscale.toInt = xScale s.cfg x ∧ t.ss.yscale.toInt = yScale s.cfg x ∧
     t.ss.xshift.toInt = s.regs.rsXShift.toInt ∧ t.ss.yshift.toInt = s.regs.rsYShift.toInt ∧
     -32768 ≤ xScale s.cfg x ∧ xScale s.cfg x ≤ 114685 ∧
     -268427266 ≤ yScale s.cfg x ∧ yScale s.cfg x ≤ 268427266)

/-- 41_scaler_resolve.md R166: when SS.intdbl is 1, and that the fourth condition follows from the
first. -/
def Obligations.IntegerDoublingFlag : Prop :=
  ∀ s t : State, s.latch.fault = false → exec .resolve s = .next t →
    (t.ss.intdbl = true ↔
      s.regs.rsWidth.toNat ≤ 320 ∧ s.regs.rsCtrl.getLsbD 8 = false ∧
      s.regs.rsCtrl.getLsbD 9 = false ∧ 2 * s.regs.rsWidth.toNat ≤ 720) ∧
    (t.ss.intdbl = true ↔
      s.regs.rsWidth.toNat ≤ 320 ∧ s.regs.rsCtrl.getLsbD 8 = false ∧
      s.regs.rsCtrl.getLsbD 9 = false)

/-- 41_scaler_resolve.md R169: the document's two resolver scenarios. -/
def Obligations.ResolverScenarios : Prop :=
  ∀ s : State, s.latch.fault = false →
    (s.regs.rsCtrl.getLsbD 0 = true → s.regs.rsCtrl.getLsbD 1 = false →
      s.regs.rsCtrl.getLsbD 3 = false → s.regs.rsCtrl.getLsbD 4 = false →
      s.regs.rsCtrl.getLsbD 5 = false → s.regs.rsCtrl.getLsbD 6 = false →
      s.regs.rsCtrl.getLsbD 7 = false → s.regs.rsWidth = 256 →
      ∃ t, exec .resolve s = .next t ∧ t.ss.xscale = BitVec.ofNat 32 s.cfg.xsCal.simNarrow ∧
        t.ss.yscale = BitVec.ofNat 32 (s.regs.rsHeight.toNat / 2)) ∧
    (s.regs.rsCtrl.getLsbD 0 = false → s.regs.rsCtrl.getLsbD 10 = true →
      s.regs.rsCtrl.getLsbD 2 = false → s.regs.rsCtrl.getLsbD 3 = false →
      ∃ t, exec .resolve s = .next t ∧
        t.ss.xscale = BitVec.ofInt 32 (320 + s.regs.rsUserX.toInt) ∧
        t.ss.yscale = BitVec.ofInt 32
          ((112 + s.regs.rsUserY.toInt) * (if s.regs.rsCtrl.getLsbD 7 then 2 else 1)) ∧
        (s.regs.rsUserX = 0 → s.regs.rsUserY = 0 → s.regs.rsCtrl.getLsbD 7 = false →
          t.ss.xscale = 320 ∧ t.ss.yscale = 112))

/-- RESOLVE's result is a function of the seven RS_* registers and the configuration, and SS is all
it writes (41_scaler_resolve.md R150, R167, R168). -/
def Obligations.ResolveReadsItsRegisters : Prop :=
  ∀ s s' t t' : State, s.cfg = s'.cfg → s.latch.fault = false → s'.latch.fault = false →
    s.regs.rsWidth = s'.regs.rsWidth → s.regs.rsHeight = s'.regs.rsHeight →
    s.regs.rsCtrl = s'.regs.rsCtrl → s.regs.rsUserX = s'.regs.rsUserX →
    s.regs.rsUserY = s'.regs.rsUserY → s.regs.rsXShift = s'.regs.rsXShift →
    s.regs.rsYShift = s'.regs.rsYShift →
    exec .resolve s = .next t → exec .resolve s' = .next t' →
    t.ss = t'.ss ∧ t = s.setSs t.ss

/-- 41_scaler_resolve.md R170 (d) to (g): in original mode BORDERLESS_NARROW, OVS_V and the user
offsets have no effect; in manual mode WIDESCREEN, EMU_PAL and HW_PAL have none, nor has OVS_V
unless BORDERLESS_NARROW is set. -/
def Obligations.ResolverIgnoresInactiveInputs : Prop :=
  ∀ (s t t' : State) (ctrl : BitVec 11) (ux uy : Half),
    s.latch.fault = false → exec .resolve s = .next t →
    (s.regs.rsCtrl.getLsbD 0 = true →
      (∀ n, n ≠ 2 → n ≠ 10 → ctrl.getLsbD n = s.regs.rsCtrl.getLsbD n) →
      exec .resolve (s.setRegs { s.regs with rsCtrl := ctrl, rsUserX := ux, rsUserY := uy }) =
        .next t' → t'.ss = t.ss) ∧
    (s.regs.rsCtrl.getLsbD 0 = false →
      (∀ n, n ≠ 1 → n ≠ 5 → n ≠ 6 → (n ≠ 2 ∨ s.regs.rsCtrl.getLsbD 10 = true) →
        ctrl.getLsbD n = s.regs.rsCtrl.getLsbD n) →
      exec .resolve (s.setRegs { s.regs with rsCtrl := ctrl }) = .next t' → t'.ss = t.ss)

/-! ## Rules of the whole machine -/

/-- 10_state.md R41: no command that names kind k reads or writes the other context, only FINIT and
FFREE write a context, and each replaces it whole, whatever it held. -/
def Obligations.ContextsAreIndependent : Prop :=
  ∀ (i : Instr) (k : Kind) (s t : State), exec i s = .next t →
    (namedKind i ≠ some k → t.ctx k = s.ctx k ∧
      ∀ c, exec i (s.setCtx k c) = .next (t.setCtx k c)) ∧
    ((∀ k' p, i ≠ .finit k' p) → (∀ k', i ≠ .ffree k') → ∀ k', t.ctx k' = s.ctx k') ∧
    (s.latch.fault = false → (i = .ffree k ∨ ∃ p, i = .finit k p) →
      ∀ c, exec i (s.setCtx k c) = .next t)

/-- Who writes what, over all commands (10_state.md R51, R42, R46, R32; 43_filter_blit.md R203,
R208): only FINIT and FFREE of kind k write CTX[k], only RESOLVE writes SS, only OUTW writes
OUTW_RES, only BLIT writes CLIPPED and DST, no command writes a read-write register, the line
buffer, the configuration or the host, and the latch changes only when OUTW or BLIT takes a fault.
For NOP, FINIT, FFREE, OUTW and RESOLVE this is the frame. -/
def Obligations.OnlyTheNamedCommandWrites : Prop :=
  ∀ (i : Instr) (s t : State), exec i s = .next t →
    t.regs = s.regs ∧ t.src = s.src ∧ t.cfg = s.cfg ∧ t.host = s.host ∧
    (∀ k, i ≠ .ffree k → (∀ p, i ≠ .finit k p) → t.ctx k = s.ctx k) ∧
    (i ≠ .resolve → t.ss = s.ss) ∧
    ((∀ k w, i ≠ .outw k w) → t.outwRes = s.outwRes) ∧
    ((∀ k w line, i ≠ .blit k w line) →
      t.clipped = s.clipped ∧ ∀ a, Memory.read? t.dst a = Memory.read? s.dst a) ∧
    (t.latch ≠ s.latch → t.latch.fault = true ∧
      ((∃ k w, i = .outw k w) ∨ ∃ k w line, i = .blit k w line))

/-- No command reads DST: whatever bytes `m` DST holds instead, a command answers a next state with
the same everything else, and DST is `m` for every command but a BLIT that stores; after that one a
byte of a stored texel is the byte stored in the first run, and every other byte is `m`'s
(20_memory.md R84; 43_filter_blit.md R208, R225). -/
def Obligations.CommandsNeverReadDst : Prop :=
  ∀ (i : Instr) (s t : State) (m : Memory), exec i s = .next t →
    ∃ m', exec i { s with dst := m } = .next { t with dst := m' } ∧
      ((∀ k w line, i ≠ .blit k w line) → m' = m) ∧
      (t.latch.fault = true → m' = m) ∧
      ∀ k w line, i = .blit k w line → t.latch.fault = false →
        (∀ j < storedWidth (s.cfg.kind k) s.regs w, ∀ b < s.cfg.texelBytes,
          Memory.read? m' (texelAddr s.cfg s.regs j line + b) =
            Memory.read? t.dst (texelAddr s.cfg s.regs j line + b)) ∧
        ∀ a, (∀ j < storedWidth (s.cfg.kind k) s.regs w, ∀ b < s.cfg.texelBytes,
            a ≠ texelAddr s.cfg s.regs j line + b) →
          Memory.read? m' a = Memory.read? m a

/-- Every command answers a next state in every state: none stops the machine, and a frozen block
stays as it is (60_exceptions.md R246, 42_filter_init.md R189, 41_scaler_resolve.md R151). -/
def Obligations.EveryCommandAnswers : Prop :=
  ∀ (i : Instr) (s : State), ∃ t, exec i s = .next t ∧
    (s.latch.fault = true → t = s) ∧ (t.latch.fault = false → s.latch.fault = false)

/-- The invariant of `State.Inv` is kept by every step: DST and SRC keep their canonical form and
stay inside their spaces, the latch holds no code but the nine, a valid context is never OFF, its
knobs stay clamped and its table total, an invalid SS reads 0, and OUTW_RES is a width and its
rounding (20_memory.md R82, R84, R95; 60_exceptions.md R241; 10_state.md R40, R42, R46). -/
def Obligations.StepKeepsInvariant : Prop :=
  ∀ s t : State, s.Inv → step s = .next t → t.Inv

/-- The invariant holds at reset (10_state.md R50; the stand-in configuration is the model's choice,
log 1). -/
def Obligations.ResetMeetsInvariant : Prop := State.reset.Inv

/-- Every run keeps the invariant, and on a configuration of this hardware no run of any host script
ever stops by a fault or a refusal (60_exceptions.md R247: the block's faults freeze it, they do not
end the run; 20_memory.md R84). -/
def Obligations.EveryRunKeepsInvariant : Prop :=
  ∀ (s : State) (n : Nat), s.Inv → ∃ t, Host.Core.run Sys2Proof.core n s = .next t ∧ t.Inv

/-! ## The host script -/

/-- The statements of 30_encoding.md R130: the accesses each stands for, and the operand ranges
outside of which it is rejected; a script is rejected whole if one of its statements is, and
otherwise its statements' accesses follow one another in order. That `v` of SRC is an imm32, that
one constructor covers the six commands, and the statements WR and RD with a numeric offset
(95_test_vectors.md) are the model's shape of the script (log 17). -/
def Obligations.ScriptsAssemble : Prop :=
  (∀ script : List Stmt, assemble script = none ↔ ∃ st ∈ script, assemble [st] = none) ∧
  (∀ a b ea eb, assemble a = some ea → assemble b = some eb → assemble (a ++ b) = some (ea ++ eb)) ∧
  (∀ e ∈ registerTable, ∀ imm, assemble [.wr e.2.1 imm] =
    if imm < 4294967296 then some [.write e.1 4 (BitVec.ofNat 32 imm)] else none) ∧
  (∀ e ∈ registerTable, assemble [.rd e.2.1] = some [.read e.1 4]) ∧
  (∀ i imm, assemble [.wr (.lineBuf i) imm] =
    if i ≤ 2047 ∧ imm < 4294967296 then
      some [.write (BitVec.ofNat 32 (0x1000 + 4 * i)) 4 (BitVec.ofNat 32 imm)] else none) ∧
  (∀ i, assemble [.rd (.lineBuf i)] =
    if i ≤ 2047 then some [.read (BitVec.ofNat 32 (0x1000 + 4 * i)) 4] else none) ∧
  (∀ i v, assemble [.src i v] =
    if i ≤ 2047 ∧ v < 4294967296 then
      some [.write (BitVec.ofNat 32 (0x1000 + 4 * i)) 4 (BitVec.ofNat 32 v)] else none) ∧
  assemble [.command .nop] = some [.write 0 4 0x00000000] ∧
  (∀ kb ∈ ([(.lr, 0), (.hr, 1)] : List (Kind × Nat)),
    (∀ pc ∈ ([(.off, 0), (.composite, 1), (.svideo, 2), (.rgb, 3), (.custom, 4)] :
        List (Preset × Nat)),
      assemble [.command (.finit kb.1 pc.1)] =
        some [.write 0 4 (BitVec.ofNat 32 (0x10000000 + kb.2 * 2 ^ 27 + pc.2))]) ∧
    assemble [.command (.ffree kb.1)] =
      some [.write 0 4 (BitVec.ofNat 32 (0x20000000 + kb.2 * 2 ^ 27))] ∧
    (∀ w, assemble [.command (.outw kb.1 w)] =
      if w ≤ 2047 then
        some [.write 0 4 (BitVec.ofNat 32 (0x30000000 + kb.2 * 2 ^ 27 + w * 2 ^ 16))] else none) ∧
    ∀ w line, assemble [.command (.blit kb.1 w line)] =
      if w ≤ 2047 ∧ line ≤ 1023 then
        some [.write 0 4 (BitVec.ofNat 32 (0x40000000 + kb.2 * 2 ^ 27 + w * 2 ^ 16 + line))]
      else none) ∧
  assemble [.command .resolve] = some [.write 0 4 0x50000000] ∧
  (∀ imm, assemble [.cmd imm] =
    if imm < 4294967296 then some [.write 0 4 (BitVec.ofNat 32 imm)] else none) ∧
  (∀ off imm, assemble [.wrAt off imm] =
    if off < 4294967296 ∧ imm < 4294967296 then
      some [.write (BitVec.ofNat 32 off) 4 (BitVec.ofNat 32 imm)] else none) ∧
  ∀ off, assemble [.rdAt off] =
    if off < 4294967296 then some [.read (BitVec.ofNat 32 off) 4] else none

/-- The pseudo-statements of 30_encoding.md R132: ROW writes entry n with its n-th value, KNOBS the
five knob registers with its signed operands AND 0xFFFF, SURFACE the DST registers, GEOM RS_WIDTH,
RS_HEIGHT and RS_CTRL; outside the operand ranges they are rejected. That ROW has at most 2048
values, since SRC <i> has i <= 2047, that a ROW of no values is accepted and stands for no access,
and that ROW's values and the operands of SURFACE and GEOM are imm32, is the model's choice
(log 17). -/
def Obligations.PseudoStatementsExpand : Prop :=
  (∀ vs : List Nat, assemble [.row vs] =
    if vs.length ≤ 2048 ∧ ∀ v ∈ vs, v < 4294967296 then
      some ((List.range vs.length).map fun n =>
        .write (BitVec.ofNat 32 (0x1000 + 4 * n)) 4 (BitVec.ofNat 32 (vs.getD n 0))) else none) ∧
  (∀ s r a f b : Int, assemble [.knobs s r a f b] =
    if ∀ v ∈ [s, r, a, f, b], -32768 ≤ v ∧ v ≤ 32767 then
      some [.write 0x0010 4 (BitVec.ofInt 32 s &&& 0xFFFF),
        .write 0x0014 4 (BitVec.ofInt 32 r &&& 0xFFFF),
        .write 0x0018 4 (BitVec.ofInt 32 a &&& 0xFFFF),
        .write 0x001C 4 (BitVec.ofInt 32 f &&& 0xFFFF),
        .write 0x0020 4 (BitVec.ofInt 32 b &&& 0xFFFF)] else none) ∧
  (∀ base pitch lines, assemble [.surface base pitch lines] =
    if base < 4294967296 ∧ pitch < 4294967296 ∧ lines < 4294967296 then
      some [.write 0x0024 4 (BitVec.ofNat 32 base), .write 0x0028 4 (BitVec.ofNat 32 pitch),
        .write 0x002C 4 (BitVec.ofNat 32 lines)] else none) ∧
  ∀ w h ctrl, assemble [.geom w h ctrl] =
    if w < 4294967296 ∧ h < 4294967296 ∧ ctrl < 4294967296 then
      some [.write 0x0040 4 (BitVec.ofNat 32 w), .write 0x0044 4 (BitVec.ofNat 32 h),
        .write 0x0048 4 (BitVec.ofNat 32 ctrl)] else none

/-! ## Which field a register reads -/

/-- A read-write register reads the stored bits of its own field in place and 0 elsewhere: the
fields the commands read are the registers of 10_state.md R34 (R38, R39, R43, R44, R45, R48). -/
def Obligations.RegistersReadTheirFields : Prop :=
  ∀ s : State,
    readReg s .knobSharpness = s.regs.knobs.sharpness.setWidth 32 ∧
    readReg s .knobResolution = s.regs.knobs.resolution.setWidth 32 ∧
    readReg s .knobArtifacts = s.regs.knobs.artifacts.setWidth 32 ∧
    readReg s .knobFringing = s.regs.knobs.fringing.setWidth 32 ∧
    readReg s .knobBleed = s.regs.knobs.bleed.setWidth 32 ∧
    readReg s .dstBase = s.regs.dstBase ∧
    readReg s .dstPitch = s.regs.dstPitch.setWidth 32 ∧
    readReg s .dstLines = s.regs.dstLines.setWidth 32 ∧
    readReg s .rsWidth = s.regs.rsWidth.setWidth 32 ∧
    readReg s .rsHeight = s.regs.rsHeight.setWidth 32 ∧
    readReg s .rsCtrl = s.regs.rsCtrl.setWidth 32 ∧
    readReg s .rsUserX = s.regs.rsUserX.setWidth 32 ∧
    readReg s .rsUserY = s.regs.rsUserY.setWidth 32 ∧
    readReg s .rsXShift = s.regs.rsXShift.setWidth 32 ∧
    readReg s .rsYShift = s.regs.rsYShift.setWidth 32
end

