-- ==== Sys2Proof/Laws/Bits.lean ====
section
/-! SUPPORT. Fields of a word as arithmetic. -/

namespace Sys2Proof

theorem bits_lt (v : Word) (hi lo : Nat) : bits v hi lo < 2 ^ (hi + 1 - lo) :=
  Nat.mod_lt _ (Nat.two_pow_pos _)

theorem bits_ofNat (n hi lo : Nat) (h : n < 4294967296) :
    bits (BitVec.ofNat 32 n) hi lo = n / 2 ^ lo % 2 ^ (hi + 1 - lo) := by
  unfold bits
  rw [BitVec.toNat_ofNat, Nat.mod_eq_of_lt h]

theorem kindBit_lt (k : Kind) : kindBit k < 2 := by cases k <;> decide

@[simp] theorem kindOfBit_kindBit (k : Kind) : kindOfBit (kindBit k) = k := by cases k <;> rfl

theorem kindBit_kindOfBit {b : Nat} (h : b < 2) : kindBit (kindOfBit b) = b := by
  unfold kindOfBit
  split
  · simp [kindBit, *]
  · simp only [kindBit]; omega

theorem presetCode_le (p : Preset) : presetCode p ≤ 4 := by cases p <;> decide

@[simp] theorem presetOfCode_presetCode (p : Preset) : presetOfCode (presetCode p) = some p := by
  cases p <;> rfl

theorem presetCode_of_presetOfCode {n : Nat} {p : Preset} (h : presetOfCode n = some p) :
    presetCode p = n := by
  unfold presetOfCode at h
  split at h <;> cases h <;> rfl

theorem presetOfCode_none {n : Nat} : presetOfCode n = none ↔ 5 ≤ n := by
  rcases n with _ | _ | _ | _ | _ | n <;> simp [presetOfCode]

end Sys2Proof
end

