-- ==== Sys2Proof/Laws/Cells.lean ====
section
/-! SUPPORT. What the sparse cells, the destination memory and the line buffer do: read after write,
other places unchanged, the canonical form kept. -/

namespace Sys2Proof.Machine

variable {α : Type}

theorem Cells.get?_set_self (m : List (Nat × α)) (a : Nat) (v : α) :
    Cells.get? (Cells.set m a v) a = some v := by
  induction m with
  | nil => simp [Cells.set, Cells.get?]
  | cons x t ih =>
    obtain ⟨k, w⟩ := x
    simp only [Cells.set]
    split
    · simp [Cells.get?]
    · split
      · simp [Cells.get?]
      · simp [Cells.get?, *]

theorem Cells.get?_set_ne (m : List (Nat × α)) (a b : Nat) (v : α) (h : b ≠ a) :
    Cells.get? (Cells.set m a v) b = Cells.get? m b := by
  induction m with
  | nil => simp [Cells.set, Cells.get?, h]
  | cons x t ih =>
    obtain ⟨k, w⟩ := x
    simp only [Cells.set]
    split
    · simp [Cells.get?, h]
    · split
      · rename_i _ hk
        subst hk
        simp [Cells.get?, h]
      · simp [Cells.get?, ih]

theorem Cells.get?_set (m : List (Nat × α)) (a b : Nat) (v : α) :
    Cells.get? (Cells.set m a v) b = if b = a then some v else Cells.get? m b := by
  split
  · subst b; exact Cells.get?_set_self m a v
  · exact Cells.get?_set_ne m a b v ‹_›

/-- Every cell after a write is the one written or an old one. -/
theorem Cells.mem_set {m : List (Nat × α)} {a : Nat} {v : α} {x : Nat × α}
    (h : x ∈ Cells.set m a v) : x = (a, v) ∨ x ∈ m := by
  induction m with
  | nil => simpa [Cells.set] using h
  | cons y t ih =>
    obtain ⟨k, w⟩ := y
    simp only [Cells.set] at h
    split at h
    · simpa using h
    · split at h
      · simp only [List.mem_cons] at h ⊢
        tauto
      · simp only [List.mem_cons] at h ⊢
        rcases h with h | h
        · exact .inr (.inl h)
        · rcases ih h with h | h <;> tauto

/-- A write keeps the canonical form. -/
theorem Cells.canonical_set {m : List (Nat × α)} (h : Cells.Canonical m) (a : Nat) (v : α) :
    Cells.Canonical (Cells.set m a v) := by
  induction m with
  | nil => simp [Cells.set, Cells.Canonical]
  | cons y t ih =>
    obtain ⟨k, w⟩ := y
    obtain ⟨hk, ht⟩ := List.pairwise_cons.mp h
    simp only [Cells.set]
    split
    · rename_i hak
      refine List.pairwise_cons.mpr ⟨fun x hx => ?_, h⟩
      rcases List.mem_cons.mp hx with rfl | hx
      · exact hak
      · exact hak.trans (hk x hx)
    · split
      · rename_i _ hak
        subst hak
        exact List.pairwise_cons.mpr ⟨hk, ht⟩
      · refine List.pairwise_cons.mpr ⟨fun x hx => ?_, ih ht⟩
        rcases Cells.mem_set hx with rfl | hx
        · show k < a
          omega
        · exact hk x hx

/-- A listed cell is found at its address. -/
theorem Cells.get?_of_mem {m : List (Nat × α)} (h : Cells.Canonical m) {x : Nat × α} (hx : x ∈ m) :
    Cells.get? m x.1 = some x.2 := by
  induction m with
  | nil => simp at hx
  | cons y t ih =>
    obtain ⟨k, w⟩ := y
    obtain ⟨hk, ht⟩ := List.pairwise_cons.mp h
    rcases List.mem_cons.mp hx with rfl | hx
    · simp [Cells.get?]
    · have := hk x hx
      have hne : x.1 ≠ k := by simp only at this; omega
      simp [Cells.get?, hne, ih ht hx]

/-- A value found at an address is a listed cell. -/
theorem Cells.mem_of_get? {m : List (Nat × α)} {a : Nat} {v : α} (h : Cells.get? m a = some v) :
    (a, v) ∈ m := by
  induction m with
  | nil => cases h
  | cons y t ih =>
    obtain ⟨k, w⟩ := y
    simp only [Cells.get?] at h
    split at h
    · cases h
      subst a
      exact List.mem_cons_self
    · exact List.mem_cons_of_mem _ (ih h)

/-! ## The destination memory -/

/-- The writes of `dstWrite`, as a fold over the first `n` bytes of a `w`-byte value. -/
theorem dstWrite_read?_aux (m : Memory) (addr w n : Nat) (v : Word) (a : Nat) :
    Memory.read? ((List.range n).foldl (fun m b => Cells.set m (addr + b) (byteOf w v b)) m) a =
      if addr ≤ a ∧ a < addr + n then some (byteOf w v (a - addr)) else Memory.read? m a := by
  induction n with
  | zero =>
    rw [if_neg (by omega)]
    rfl
  | succ n ih =>
    simp only [Memory.read?] at ih ⊢
    rw [List.range_succ, List.foldl_append]
    simp only [List.foldl_cons, List.foldl_nil]
    rw [Cells.get?_set, ih]
    by_cases h1 : a = addr + n
    · subst h1
      rw [if_pos rfl, if_pos (by omega)]
      simp
    · rw [if_neg h1]
      by_cases h2 : addr ≤ a ∧ a < addr + n
      · rw [if_pos h2, if_pos (by omega)]
      · rw [if_neg h2, if_neg (by omega)]

/-- What `dstWrite` does: byte a - addr of the value inside, the old byte outside. -/
theorem dstWrite_read? (m : Memory) (addr n : Nat) (v : Word) (a : Nat) :
    Memory.read? (dstWrite m addr n v) a =
      if addr ≤ a ∧ a < addr + n then some (byteOf n v (a - addr)) else Memory.read? m a :=
  dstWrite_read?_aux m addr n n v a

theorem dstWrite_wf {m : Memory} (h : Memory.wf m) (addr n : Nat) (v : Word) :
    Memory.wf (dstWrite m addr n v) := by
  unfold dstWrite
  induction n generalizing m with
  | zero => exact h
  | succ n _ =>
    generalize n + 1 = k
    induction (List.range k) generalizing m with
    | nil => exact h
    | cons b t ih => exact ih (Cells.canonical_set h _ _)

theorem dstWrite_mem {m : Memory} {addr n : Nat} {v : Word} {x : Host.Cell}
    (hx : x ∈ dstWrite m addr n v) : x ∈ m ∨ (addr ≤ x.1 ∧ x.1 < addr + n) := by
  unfold dstWrite at hx
  generalize hw : n = w at hx
  have hle : n ≤ w := hw.le
  have : ∀ k, k ≤ n →
      x ∈ (List.range k).foldl (fun m b => Cells.set m (addr + b) (byteOf w v b)) m →
      x ∈ m ∨ (addr ≤ x.1 ∧ x.1 < addr + n) := by
    intro k
    induction k with
    | zero => intro _ h; exact .inl h
    | succ k ih =>
      intro hk h
      rw [List.range_succ, List.foldl_append] at h
      rcases Cells.mem_set h with rfl | h
      · right
        simp only
        omega
      · exact ih (by omega) h
  subst hw
  exact this n (Nat.le_refl n) hx

theorem dstWriteAll_wf {m : Memory} (h : Memory.wf m) (n : Nat) (stores : List (Nat × Word)) :
    Memory.wf (dstWriteAll m n stores) := by
  unfold dstWriteAll
  induction stores generalizing m with
  | nil => exact h
  | cons st t ih => exact ih (dstWrite_wf h _ _ _)

/-- Every cell after a list of stores is an old one or lies in a store. -/
theorem dstWriteAll_mem {m : Memory} {n : Nat} {stores : List (Nat × Word)} {x : Host.Cell}
    (hx : x ∈ dstWriteAll m n stores) :
    x ∈ m ∨ ∃ st ∈ stores, st.1 ≤ x.1 ∧ x.1 < st.1 + n := by
  unfold dstWriteAll at hx
  induction stores generalizing m with
  | nil => exact .inl hx
  | cons st t ih =>
    rcases ih hx with h | ⟨st', h, h'⟩
    · rcases dstWrite_mem h with h | h
      · exact .inl h
      · exact .inr ⟨st, List.mem_cons_self, h⟩
    · exact .inr ⟨st', List.mem_cons_of_mem _ h, h'⟩

/-- Outside every store the old byte is read. -/
theorem dstWriteAll_read?_outside (m : Memory) (n : Nat) (stores : List (Nat × Word)) (a : Nat)
    (h : ∀ st ∈ stores, ¬(st.1 ≤ a ∧ a < st.1 + n)) :
    Memory.read? (dstWriteAll m n stores) a = Memory.read? m a := by
  unfold dstWriteAll
  induction stores generalizing m with
  | nil => rfl
  | cons st t ih =>
    rw [List.foldl_cons, ih _ fun st' h' => h st' (List.mem_cons_of_mem _ h'), dstWrite_read?,
      if_neg (h st List.mem_cons_self)]

/-- In a store that no later one overlaps, the byte of its value is read. -/
theorem dstWriteAll_read?_inside (m : Memory) (n : Nat) (stores : List (Nat × Word))
    (hp : stores.Pairwise fun x y => x.1 + n ≤ y.1 ∨ y.1 + n ≤ x.1)
    {st : Nat × Word} (hs : st ∈ stores) {b : Nat} (hb : b < n) :
    Memory.read? (dstWriteAll m n stores) (st.1 + b) = some (byteOf n st.2 b) := by
  unfold dstWriteAll
  induction stores generalizing m with
  | nil => simp at hs
  | cons x t ih =>
    obtain ⟨hx, ht⟩ := List.pairwise_cons.mp hp
    rw [List.foldl_cons]
    rcases List.mem_cons.mp hs with rfl | hs
    · have := dstWriteAll_read?_outside (dstWrite m st.1 n st.2) n t (st.1 + b) fun y hy => by
        have := hx y hy
        omega
      rw [dstWriteAll] at this
      rw [this, dstWrite_read?, if_pos (by omega)]
      simp
    · exact ih _ ht hs

/-- Reset's destination memory lists nothing, and is canonical. -/
theorem reset_dst_wf : Memory.wf State.reset.dst := by decide

/-! ## The line buffer -/

/-- A write of an entry keeps the line buffer's canonical form. -/
theorem srcWrite_canonical {b : LineBuffer} (h : Cells.Canonical b) (i : Nat) (v : Half) :
    Cells.Canonical (srcWrite b i v) := Cells.canonical_set h i v

theorem srcWrite_get? (b : LineBuffer) (i j : Nat) (v : Half) :
    Cells.get? (srcWrite b i v) j = if j = i then some v else Cells.get? b j :=
  Cells.get?_set b i j v

theorem srcWritten_srcWrite (b : LineBuffer) (i j : Nat) (v : Half) :
    srcWritten (srcWrite b i v) j = (decide (j = i) || srcWritten b j) := by
  unfold srcWritten
  rw [srcWrite_get?]
  by_cases h : j = i <;> simp [h]

/-- SrcRead depends on the entry alone (20_memory.md R83). -/
theorem srcRead_congr {b b' : LineBuffer} {i : Nat} (h : Cells.get? b i = Cells.get? b' i) (n : Nat) :
    srcRead n b i = srcRead n b' i := by unfold srcRead; rw [h]

theorem srcRead_lt (n : Nat) (b : LineBuffer) (i : Nat) : srcRead n b i < 2 ^ n :=
  Nat.mod_lt _ (Nat.two_pow_pos n)

end Sys2Proof.Machine
end

