-- ==== Sys2Proof/Laws/State.lean ====
section
/-! SUPPORT. The small lemmas of the state's updates: one per field per update, by rfl, so that no
proof unfolds a record update. -/

namespace Sys2Proof.Machine

@[simp] theorem State.setRegs_regs (s : State) (r : Regs) : (s.setRegs r).regs = r := rfl
@[simp] theorem State.setRegs_ctxLr (s : State) (r : Regs) : (s.setRegs r).ctxLr = s.ctxLr := rfl
@[simp] theorem State.setRegs_ctxHr (s : State) (r : Regs) : (s.setRegs r).ctxHr = s.ctxHr := rfl
@[simp] theorem State.setRegs_ss (s : State) (r : Regs) : (s.setRegs r).ss = s.ss := rfl
@[simp] theorem State.setRegs_src (s : State) (r : Regs) : (s.setRegs r).src = s.src := rfl
@[simp] theorem State.setRegs_latch (s : State) (r : Regs) : (s.setRegs r).latch = s.latch := rfl
@[simp] theorem State.setRegs_clipped (s : State) (r : Regs) : (s.setRegs r).clipped = s.clipped := rfl
@[simp] theorem State.setRegs_outwRes (s : State) (r : Regs) : (s.setRegs r).outwRes = s.outwRes := rfl
@[simp] theorem State.setRegs_dst (s : State) (r : Regs) : (s.setRegs r).dst = s.dst := rfl
@[simp] theorem State.setRegs_cfg (s : State) (r : Regs) : (s.setRegs r).cfg = s.cfg := rfl
@[simp] theorem State.setRegs_host (s : State) (r : Regs) : (s.setRegs r).host = s.host := rfl
@[simp] theorem State.setRegs_ctx (s : State) (r : Regs) (k : Kind) : (s.setRegs r).ctx k = s.ctx k := by
  cases k <;> rfl

@[simp] theorem State.setSs_regs (s : State) (v : ScalerState) : (s.setSs v).regs = s.regs := rfl
@[simp] theorem State.setSs_ctxLr (s : State) (v : ScalerState) : (s.setSs v).ctxLr = s.ctxLr := rfl
@[simp] theorem State.setSs_ctxHr (s : State) (v : ScalerState) : (s.setSs v).ctxHr = s.ctxHr := rfl
@[simp] theorem State.setSs_ss (s : State) (v : ScalerState) : (s.setSs v).ss = v := rfl
@[simp] theorem State.setSs_src (s : State) (v : ScalerState) : (s.setSs v).src = s.src := rfl
@[simp] theorem State.setSs_latch (s : State) (v : ScalerState) : (s.setSs v).latch = s.latch := rfl
@[simp] theorem State.setSs_clipped (s : State) (v : ScalerState) : (s.setSs v).clipped = s.clipped := rfl
@[simp] theorem State.setSs_outwRes (s : State) (v : ScalerState) : (s.setSs v).outwRes = s.outwRes := rfl
@[simp] theorem State.setSs_dst (s : State) (v : ScalerState) : (s.setSs v).dst = s.dst := rfl
@[simp] theorem State.setSs_cfg (s : State) (v : ScalerState) : (s.setSs v).cfg = s.cfg := rfl
@[simp] theorem State.setSs_host (s : State) (v : ScalerState) : (s.setSs v).host = s.host := rfl
@[simp] theorem State.setSs_ctx (s : State) (v : ScalerState) (k : Kind) : (s.setSs v).ctx k = s.ctx k := by
  cases k <;> rfl

@[simp] theorem State.setSrc_regs (s : State) (b : LineBuffer) : (s.setSrc b).regs = s.regs := rfl
@[simp] theorem State.setSrc_ctxLr (s : State) (b : LineBuffer) : (s.setSrc b).ctxLr = s.ctxLr := rfl
@[simp] theorem State.setSrc_ctxHr (s : State) (b : LineBuffer) : (s.setSrc b).ctxHr = s.ctxHr := rfl
@[simp] theorem State.setSrc_ss (s : State) (b : LineBuffer) : (s.setSrc b).ss = s.ss := rfl
@[simp] theorem State.setSrc_src (s : State) (b : LineBuffer) : (s.setSrc b).src = b := rfl
@[simp] theorem State.setSrc_latch (s : State) (b : LineBuffer) : (s.setSrc b).latch = s.latch := rfl
@[simp] theorem State.setSrc_clipped (s : State) (b : LineBuffer) : (s.setSrc b).clipped = s.clipped := rfl
@[simp] theorem State.setSrc_outwRes (s : State) (b : LineBuffer) : (s.setSrc b).outwRes = s.outwRes := rfl
@[simp] theorem State.setSrc_dst (s : State) (b : LineBuffer) : (s.setSrc b).dst = s.dst := rfl
@[simp] theorem State.setSrc_cfg (s : State) (b : LineBuffer) : (s.setSrc b).cfg = s.cfg := rfl
@[simp] theorem State.setSrc_host (s : State) (b : LineBuffer) : (s.setSrc b).host = s.host := rfl
@[simp] theorem State.setSrc_ctx (s : State) (b : LineBuffer) (k : Kind) : (s.setSrc b).ctx k = s.ctx k := by
  cases k <;> rfl

@[simp] theorem State.setLatch_regs (s : State) (l : FaultLatch) : (s.setLatch l).regs = s.regs := rfl
@[simp] theorem State.setLatch_ctxLr (s : State) (l : FaultLatch) : (s.setLatch l).ctxLr = s.ctxLr := rfl
@[simp] theorem State.setLatch_ctxHr (s : State) (l : FaultLatch) : (s.setLatch l).ctxHr = s.ctxHr := rfl
@[simp] theorem State.setLatch_ss (s : State) (l : FaultLatch) : (s.setLatch l).ss = s.ss := rfl
@[simp] theorem State.setLatch_src (s : State) (l : FaultLatch) : (s.setLatch l).src = s.src := rfl
@[simp] theorem State.setLatch_latch (s : State) (l : FaultLatch) : (s.setLatch l).latch = l := rfl
@[simp] theorem State.setLatch_clipped (s : State) (l : FaultLatch) : (s.setLatch l).clipped = s.clipped := rfl
@[simp] theorem State.setLatch_outwRes (s : State) (l : FaultLatch) : (s.setLatch l).outwRes = s.outwRes := rfl
@[simp] theorem State.setLatch_dst (s : State) (l : FaultLatch) : (s.setLatch l).dst = s.dst := rfl
@[simp] theorem State.setLatch_cfg (s : State) (l : FaultLatch) : (s.setLatch l).cfg = s.cfg := rfl
@[simp] theorem State.setLatch_host (s : State) (l : FaultLatch) : (s.setLatch l).host = s.host := rfl
@[simp] theorem State.setLatch_ctx (s : State) (l : FaultLatch) (k : Kind) : (s.setLatch l).ctx k = s.ctx k := by
  cases k <;> rfl

@[simp] theorem State.setOutwRes_regs (s : State) (v : Word) : (s.setOutwRes v).regs = s.regs := rfl
@[simp] theorem State.setOutwRes_ctxLr (s : State) (v : Word) : (s.setOutwRes v).ctxLr = s.ctxLr := rfl
@[simp] theorem State.setOutwRes_ctxHr (s : State) (v : Word) : (s.setOutwRes v).ctxHr = s.ctxHr := rfl
@[simp] theorem State.setOutwRes_ss (s : State) (v : Word) : (s.setOutwRes v).ss = s.ss := rfl
@[simp] theorem State.setOutwRes_src (s : State) (v : Word) : (s.setOutwRes v).src = s.src := rfl
@[simp] theorem State.setOutwRes_latch (s : State) (v : Word) : (s.setOutwRes v).latch = s.latch := rfl
@[simp] theorem State.setOutwRes_clipped (s : State) (v : Word) : (s.setOutwRes v).clipped = s.clipped := rfl
@[simp] theorem State.setOutwRes_outwRes (s : State) (v : Word) : (s.setOutwRes v).outwRes = v := rfl
@[simp] theorem State.setOutwRes_dst (s : State) (v : Word) : (s.setOutwRes v).dst = s.dst := rfl
@[simp] theorem State.setOutwRes_cfg (s : State) (v : Word) : (s.setOutwRes v).cfg = s.cfg := rfl
@[simp] theorem State.setOutwRes_host (s : State) (v : Word) : (s.setOutwRes v).host = s.host := rfl
@[simp] theorem State.setOutwRes_ctx (s : State) (v : Word) (k : Kind) : (s.setOutwRes v).ctx k = s.ctx k := by
  cases k <;> rfl

@[simp] theorem State.setRow_regs (s : State) (m : Memory) (c : Bool) : (s.setRow m c).regs = s.regs := rfl
@[simp] theorem State.setRow_ctxLr (s : State) (m : Memory) (c : Bool) : (s.setRow m c).ctxLr = s.ctxLr := rfl
@[simp] theorem State.setRow_ctxHr (s : State) (m : Memory) (c : Bool) : (s.setRow m c).ctxHr = s.ctxHr := rfl
@[simp] theorem State.setRow_ss (s : State) (m : Memory) (c : Bool) : (s.setRow m c).ss = s.ss := rfl
@[simp] theorem State.setRow_src (s : State) (m : Memory) (c : Bool) : (s.setRow m c).src = s.src := rfl
@[simp] theorem State.setRow_latch (s : State) (m : Memory) (c : Bool) : (s.setRow m c).latch = s.latch := rfl
@[simp] theorem State.setRow_clipped (s : State) (m : Memory) (c : Bool) : (s.setRow m c).clipped = c := rfl
@[simp] theorem State.setRow_outwRes (s : State) (m : Memory) (c : Bool) : (s.setRow m c).outwRes = s.outwRes := rfl
@[simp] theorem State.setRow_dst (s : State) (m : Memory) (c : Bool) : (s.setRow m c).dst = m := rfl
@[simp] theorem State.setRow_cfg (s : State) (m : Memory) (c : Bool) : (s.setRow m c).cfg = s.cfg := rfl
@[simp] theorem State.setRow_host (s : State) (m : Memory) (c : Bool) : (s.setRow m c).host = s.host := rfl
@[simp] theorem State.setRow_ctx (s : State) (m : Memory) (c : Bool) (k : Kind) : (s.setRow m c).ctx k = s.ctx k := by
  cases k <;> rfl

@[simp] theorem State.setPending_regs (s : State) (es : List HostEvent) : (s.setPending es).regs = s.regs := rfl
@[simp] theorem State.setPending_ctxLr (s : State) (es : List HostEvent) : (s.setPending es).ctxLr = s.ctxLr := rfl
@[simp] theorem State.setPending_ctxHr (s : State) (es : List HostEvent) : (s.setPending es).ctxHr = s.ctxHr := rfl
@[simp] theorem State.setPending_ss (s : State) (es : List HostEvent) : (s.setPending es).ss = s.ss := rfl
@[simp] theorem State.setPending_src (s : State) (es : List HostEvent) : (s.setPending es).src = s.src := rfl
@[simp] theorem State.setPending_latch (s : State) (es : List HostEvent) : (s.setPending es).latch = s.latch := rfl
@[simp] theorem State.setPending_clipped (s : State) (es : List HostEvent) : (s.setPending es).clipped = s.clipped := rfl
@[simp] theorem State.setPending_outwRes (s : State) (es : List HostEvent) : (s.setPending es).outwRes = s.outwRes := rfl
@[simp] theorem State.setPending_dst (s : State) (es : List HostEvent) : (s.setPending es).dst = s.dst := rfl
@[simp] theorem State.setPending_cfg (s : State) (es : List HostEvent) : (s.setPending es).cfg = s.cfg := rfl
@[simp] theorem State.setPending_host (s : State) (es : List HostEvent) : (s.setPending es).host = { s.host with pending := es } := rfl
@[simp] theorem State.setPending_ctx (s : State) (es : List HostEvent) (k : Kind) : (s.setPending es).ctx k = s.ctx k := by
  cases k <;> rfl

@[simp] theorem State.logRead_regs (s : State) (v : Word) : (s.logRead v).regs = s.regs := rfl
@[simp] theorem State.logRead_ctxLr (s : State) (v : Word) : (s.logRead v).ctxLr = s.ctxLr := rfl
@[simp] theorem State.logRead_ctxHr (s : State) (v : Word) : (s.logRead v).ctxHr = s.ctxHr := rfl
@[simp] theorem State.logRead_ss (s : State) (v : Word) : (s.logRead v).ss = s.ss := rfl
@[simp] theorem State.logRead_src (s : State) (v : Word) : (s.logRead v).src = s.src := rfl
@[simp] theorem State.logRead_latch (s : State) (v : Word) : (s.logRead v).latch = s.latch := rfl
@[simp] theorem State.logRead_clipped (s : State) (v : Word) : (s.logRead v).clipped = s.clipped := rfl
@[simp] theorem State.logRead_outwRes (s : State) (v : Word) : (s.logRead v).outwRes = s.outwRes := rfl
@[simp] theorem State.logRead_dst (s : State) (v : Word) : (s.logRead v).dst = s.dst := rfl
@[simp] theorem State.logRead_cfg (s : State) (v : Word) : (s.logRead v).cfg = s.cfg := rfl
@[simp] theorem State.logRead_host (s : State) (v : Word) : (s.logRead v).host = { s.host with reads := s.host.reads ++ [v] } := rfl
@[simp] theorem State.logRead_ctx (s : State) (v : Word) (k : Kind) : (s.logRead v).ctx k = s.ctx k := by
  cases k <;> rfl

@[simp] theorem State.setCtx_regs (s : State) (k : Kind) (c : Option FilterContext) :
    (s.setCtx k c).regs = s.regs := by cases k <;> rfl
@[simp] theorem State.setCtx_ss (s : State) (k : Kind) (c : Option FilterContext) :
    (s.setCtx k c).ss = s.ss := by cases k <;> rfl
@[simp] theorem State.setCtx_src (s : State) (k : Kind) (c : Option FilterContext) :
    (s.setCtx k c).src = s.src := by cases k <;> rfl
@[simp] theorem State.setCtx_latch (s : State) (k : Kind) (c : Option FilterContext) :
    (s.setCtx k c).latch = s.latch := by cases k <;> rfl
@[simp] theorem State.setCtx_clipped (s : State) (k : Kind) (c : Option FilterContext) :
    (s.setCtx k c).clipped = s.clipped := by cases k <;> rfl
@[simp] theorem State.setCtx_outwRes (s : State) (k : Kind) (c : Option FilterContext) :
    (s.setCtx k c).outwRes = s.outwRes := by cases k <;> rfl
@[simp] theorem State.setCtx_dst (s : State) (k : Kind) (c : Option FilterContext) :
    (s.setCtx k c).dst = s.dst := by cases k <;> rfl
@[simp] theorem State.setCtx_cfg (s : State) (k : Kind) (c : Option FilterContext) :
    (s.setCtx k c).cfg = s.cfg := by cases k <;> rfl
@[simp] theorem State.setCtx_host (s : State) (k : Kind) (c : Option FilterContext) :
    (s.setCtx k c).host = s.host := by cases k <;> rfl

@[simp] theorem State.setCtx_ctx_self (s : State) (k : Kind) (c : Option FilterContext) :
    (s.setCtx k c).ctx k = c := by cases k <;> rfl

theorem State.setCtx_ctx_ne (s : State) (k k' : Kind) (c : Option FilterContext) (h : k' ≠ k) :
    (s.setCtx k c).ctx k' = s.ctx k' := by cases k <;> cases k' <;> first | rfl | exact absurd rfl h

@[simp] theorem State.setCtx_same (s : State) (k : Kind) : s.setCtx k (s.ctx k) = s := by
  cases k <;> rfl

@[simp] theorem State.setCtx_setCtx (s : State) (k : Kind) (c d : Option FilterContext) :
    (s.setCtx k c).setCtx k d = s.setCtx k d := by cases k <;> rfl

@[simp] theorem State.setPending_setPending (s : State) (a b : List HostEvent) :
    (s.setPending a).setPending b = s.setPending b := rfl

@[simp] theorem State.setPending_same (s : State) : s.setPending s.host.pending = s := rfl

@[simp] theorem State.setRegs_same (s : State) : s.setRegs s.regs = s := rfl

@[simp] theorem hardReset_regs (s : State) : (hardReset s).regs = State.reset.regs := rfl
@[simp] theorem hardReset_ctx (s : State) (k : Kind) : (hardReset s).ctx k = none := by
  cases k <;> rfl
@[simp] theorem hardReset_ss (s : State) : (hardReset s).ss = State.reset.ss := rfl
@[simp] theorem hardReset_src (s : State) : (hardReset s).src = [] := rfl
@[simp] theorem hardReset_latch (s : State) : (hardReset s).latch = State.reset.latch := rfl
@[simp] theorem hardReset_clipped (s : State) : (hardReset s).clipped = false := rfl
@[simp] theorem hardReset_outwRes (s : State) : (hardReset s).outwRes = 0 := rfl
@[simp] theorem hardReset_dst (s : State) : (hardReset s).dst = s.dst := rfl
@[simp] theorem hardReset_cfg (s : State) : (hardReset s).cfg = s.cfg := rfl
@[simp] theorem hardReset_host (s : State) : (hardReset s).host = s.host := rfl

end Sys2Proof.Machine
end

