-- ==== Sys2Proof/Laws/Exec.lean ====
section
/-! SUPPORT. What taking a fault and each command can do, said once: later proofs cite these and do
not unfold the meanings. -/

namespace Sys2Proof.Machine

/-! ## Taking a fault, and the freeze -/

theorem raise_of_live {s : State} (h : s.latch.fault = false) (f : FaultCause) (info : Word) :
    raise f info s = s.setLatch { fault := true, fcode := f.code, fcmd := info } := by
  simp [raise, h]

theorem raise_of_frozen {s : State} (h : s.latch.fault = true) (f : FaultCause) (info : Word) :
    raise f info s = s := by
  simp [raise, h]

/-- A raise changes the latch at most. -/
theorem raise_eq_setLatch (f : FaultCause) (info : Word) (s : State) :
    raise f info s = s.setLatch (raise f info s).latch := by
  unfold raise
  split <;> rfl

@[simp] theorem raise_regs (f : FaultCause) (info : Word) (s : State) :
    (raise f info s).regs = s.regs := by rw [raise_eq_setLatch]; rfl
@[simp] theorem raise_ctx (f : FaultCause) (info : Word) (s : State) (k : Kind) :
    (raise f info s).ctx k = s.ctx k := by rw [raise_eq_setLatch]; simp
@[simp] theorem raise_ss (f : FaultCause) (info : Word) (s : State) :
    (raise f info s).ss = s.ss := by rw [raise_eq_setLatch]; rfl
@[simp] theorem raise_src (f : FaultCause) (info : Word) (s : State) :
    (raise f info s).src = s.src := by rw [raise_eq_setLatch]; rfl
@[simp] theorem raise_clipped (f : FaultCause) (info : Word) (s : State) :
    (raise f info s).clipped = s.clipped := by rw [raise_eq_setLatch]; rfl
@[simp] theorem raise_outwRes (f : FaultCause) (info : Word) (s : State) :
    (raise f info s).outwRes = s.outwRes := by rw [raise_eq_setLatch]; rfl
@[simp] theorem raise_dst (f : FaultCause) (info : Word) (s : State) :
    (raise f info s).dst = s.dst := by rw [raise_eq_setLatch]; rfl
@[simp] theorem raise_cfg (f : FaultCause) (info : Word) (s : State) :
    (raise f info s).cfg = s.cfg := by rw [raise_eq_setLatch]; rfl
@[simp] theorem raise_host (f : FaultCause) (info : Word) (s : State) :
    (raise f info s).host = s.host := by rw [raise_eq_setLatch]; rfl

@[simp] theorem raise_fault (f : FaultCause) (info : Word) (s : State) :
    (raise f info s).latch.fault = true := by
  unfold raise
  split
  · assumption
  · rfl

theorem unlessFrozen_of_live {s : State} (h : s.latch.fault = false) (t : State) :
    unlessFrozen s t = .next t := by simp [unlessFrozen, h]

theorem unlessFrozen_of_frozen {s : State} (h : s.latch.fault = true) (t : State) :
    unlessFrozen s t = .next s := by simp [unlessFrozen, h]

/-- What `unlessFrozen` can answer. -/
theorem unlessFrozen_eq_next {s t u : State} :
    unlessFrozen s t = .next u ↔
      (s.latch.fault = true ∧ u = s) ∨ (s.latch.fault = false ∧ u = t) := by
  unfold unlessFrozen
  cases h : s.latch.fault <;> simp [eq_comm]

/-- The codes of 60_exceptions.md R241: 1 to 9. -/
theorem FaultCause.code_range (f : FaultCause) : 1 ≤ f.code.toNat ∧ f.code.toNat ≤ 9 := by
  cases f <;> decide

/-! ## The commands -/

/-- The effect of a command in a state that is not frozen. -/
def effect (i : Instr) (s : State) : State :=
  match i with
  | .nop => s
  | .finit k p => finitEffect Config.filterModel k p s
  | .ffree k => releaseCtx k s
  | .outw k w => outwEffect k w s
  | .blit k w line => blitEffect Config.filterModel k w line s
  | .resolve => resolveEffect s

/-- Every command is its effect, unless the block is frozen. -/
theorem exec_eq_unlessFrozen (i : Instr) (s : State) : exec i s = unlessFrozen s (effect i s) := by
  cases i <;> rfl

theorem exec_of_live {s : State} (h : s.latch.fault = false) (i : Instr) :
    exec i s = .next (effect i s) := by
  rw [exec_eq_unlessFrozen, unlessFrozen_of_live h]

theorem exec_of_frozen {s : State} (h : s.latch.fault = true) (i : Instr) :
    exec i s = .next s := by
  rw [exec_eq_unlessFrozen, unlessFrozen_of_frozen h]

/-- What a command can answer: a next state, the same if frozen, else the effect. -/
theorem exec_eq_next {i : Instr} {s t : State} :
    exec i s = .next t ↔
      (s.latch.fault = true ∧ t = s) ∨ (s.latch.fault = false ∧ t = effect i s) := by
  rw [exec_eq_unlessFrozen, unlessFrozen_eq_next]

theorem finitEffect_off (f : FilterModel) (k : Kind) (s : State) :
    finitEffect f k .off s = s.setCtx k none := by simp [finitEffect, releaseCtx]

theorem finitEffect_build (f : FilterModel) (k : Kind) {p : Preset} (h : p ≠ .off) (s : State) :
    finitEffect f k p s = s.setCtx k (some (builtContext f k p s)) := by simp [finitEffect, h]

/-- FINIT replaces CTX[k] and nothing else. -/
theorem finitEffect_eq_setCtx (f : FilterModel) (k : Kind) (p : Preset) (s : State) :
    ∃ c, finitEffect f k p s = s.setCtx k c := by
  by_cases h : p = .off
  · exact ⟨_, h ▸ finitEffect_off f k s⟩
  · exact ⟨_, finitEffect_build f k h s⟩

theorem outwEffect_cases (k : Kind) (w : Nat) (s : State) :
    (widthValid (s.cfg.kind k) w = true ∧
        outwEffect k w s = s.setOutwRes (outwWord (s.cfg.kind k) w)) ∨
      (widthValid (s.cfg.kind k) w = false ∧
        outwEffect k w s = raise .width (encode (.outw k w)) s) := by
  unfold outwEffect
  cases h : widthValid (s.cfg.kind k) w <;> simp

/-- A BLIT raises the first failing check, or stores its row and sets CLIPPED. -/
theorem blitEffect_cases (f : FilterModel) (k : Kind) (w line : Nat) (s : State) :
    (∃ cause, blitCheck k w line s = some cause ∧
        blitEffect f k w line s = raise cause (encode (.blit k w line)) s) ∨
      (blitCheck k w line s = none ∧
        blitEffect f k w line s =
          s.setRow (blitMemory f k w line s) (clippedFlag (s.cfg.kind k) s.regs w)) := by
  unfold blitEffect
  cases h : blitCheck k w line s <;> simp

/-- A BLIT passes its checks exactly when the conditions of 43_filter_blit.md R209 hold. -/
theorem blitCheck_eq_none {k : Kind} {w line : Nat} {s : State} :
    blitCheck k w line s = none ↔
      (s.ctx k).isSome = true ∧ widthValid (s.cfg.kind k) w = true ∧ line < s.regs.dstLines.toNat ∧
      s.regs.dstPitch.toNat ≠ 0 ∧ s.regs.dstBase.toNat % tileBytes s.cfg = 0 ∧
      texelAddr s.cfg s.regs (storedWidth (s.cfg.kind k) s.regs w - 1) line + s.cfg.texelBytes - 1 <
        s.cfg.dstMemBytes ∧
      ∀ i < w, srcWritten s.src i = true := by
  unfold blitCheck
  simp only
  split_ifs with h1 h2 h3 h4 h5 h6 h7 <;> simp_all [Option.isSome_iff_ne_none]

end Sys2Proof.Machine
end

