-- ==== Sys2Proof/Laws/Geometry.lean ====
section
/-! SUPPORT. The facts a valid configuration gives about chunks, LEAD and texel addresses. -/

namespace Sys2Proof.Machine

theorem Config.kind_valid {c : Config} (h : c.Valid) (k : Kind) : (c.kind k).Valid := by
  cases k
  · exact h.1
  · exact h.2.1

theorem Config.texelBytes_cases {c : Config} (h : c.Valid) : c.texelBytes = 2 ∨ c.texelBytes = 4 :=
  h.2.2.1

section Lead

variable {q : KindParams}

theorem KindParams.inChunk_pos (h : q.Valid) : 0 < q.inChunk := h.1

theorem KindParams.outChunk_pos (h : q.Valid) : 0 < q.outChunk := h.1.trans h.2.1

theorem KindParams.phase_lt (h : q.Valid) (j : Nat) : phase q j < q.outChunk :=
  Nat.mod_lt _ (KindParams.outChunk_pos h)

/-- LEAD(k, p), for a phase. -/
theorem KindParams.lead_getD (h : q.Valid) {p : Nat} (hp : p < q.outChunk) :
    q.lead.getD p 0 = q.lead[p]'(by rw [h.2.2.2.2.1]; exact hp) := by
  have hl : p < q.lead.length := by rw [h.2.2.2.2.1]; exact hp
  simp [List.getD, hl]

/-- LEAD stays below IN(k) (00_scope.md R7). -/
theorem KindParams.lead_lt (h : q.Valid) {p : Nat} (hp : p < q.outChunk) :
    q.lead.getD p 0 < q.inChunk := by
  rw [KindParams.lead_getD h hp]
  exact h.2.2.2.2.2.2.2.1 _ (List.getElem_mem _)

/-- LEAD never decreases (00_scope.md R7). -/
theorem KindParams.lead_mono (h : q.Valid) {p p' : Nat} (hpp : p ≤ p')
    (hp : p' < q.outChunk) : q.lead.getD p 0 ≤ q.lead.getD p' 0 := by
  rcases Nat.eq_or_lt_of_le hpp with rfl | hlt
  · exact Nat.le_refl _
  · rw [KindParams.lead_getD h (hlt.trans hp), KindParams.lead_getD h hp]
    exact List.pairwise_iff_getElem.mp h.2.2.2.2.2.2.1 _ _ _ _ hlt

/-- LEAD takes every value below IN(k) (00_scope.md R7). -/
theorem KindParams.lead_onto (h : q.Valid) {v : Nat} (hv : v < q.inChunk) :
    ∃ p, p < q.outChunk ∧ q.lead.getD p 0 = v := by
  obtain ⟨p, hp, rfl⟩ := List.getElem_of_mem (h.2.2.2.2.2.2.2.2.1 v (List.mem_range.mpr hv))
  refine ⟨p, by rw [← h.2.2.2.2.1]; exact hp, ?_⟩
  simp [List.getD, hp]

/-- nn(j) for pixel p of chunk c. -/
theorem newest_of_chunk (h : q.Valid) (c : Nat) {p : Nat} (hp : p < q.outChunk) :
    newest q (c * q.outChunk + p) = c * q.inChunk + q.lead.getD p 0 := by
  unfold newest phase
  have h1 : (c * q.outChunk + p) / q.outChunk = c := by
    rw [Nat.mul_comm, Nat.mul_add_div (KindParams.outChunk_pos h), Nat.div_eq_of_lt hp, Nat.add_zero]
  have h2 : (c * q.outChunk + p) % q.outChunk = p := by
    rw [Nat.mul_comm, Nat.mul_add_mod, Nat.mod_eq_of_lt hp]
  rw [h1, h2]

/-- A width is its full chunks and its extra samples (43_filter_blit.md R201). -/
theorem chunks_extras (q : KindParams) (w : Nat) : chunks q w * q.inChunk + extras q w = w := by
  unfold chunks extras
  rw [Nat.mul_comm]
  exact Nat.div_add_mod w q.inChunk

theorem KindParams.extras_lt (h : q.Valid) (w : Nat) : extras q w < q.inChunk :=
  Nat.mod_lt _ (KindParams.inChunk_pos h)

/-- OW <= 2048*16 on the width domain (43_filter_blit.md R203). -/
theorem KindParams.outputWidth_le (h : q.Valid) {w : Nat} (hw : w ≤ 2047) :
    outputWidth q w ≤ 32768 := by
  unfold outputWidth chunks
  have h1 : w / q.inChunk ≤ w := Nat.div_le_self _ _
  calc (w / q.inChunk + 1) * q.outChunk ≤ 2048 * 16 := Nat.mul_le_mul (by omega) h.2.2.1
    _ = 32768 := rfl

end Lead

/-! ## Texel addresses -/

/-- In one row, the texel of a later column lies beyond an earlier one's bytes
(20_memory.md R90). -/
theorem texelAddr_row_lt (c : Config) (r : Regs) (y : Nat) {x x' : Nat} (h : x < x') :
    texelAddr c r x y + c.texelBytes ≤ texelAddr c r x' y := by
  unfold texelAddr tileBytes
  rcases Nat.lt_or_ge (x / 4) (x' / 4) with h4 | h4
  · obtain ⟨d, hd⟩ := Nat.exists_eq_add_of_lt h4
    rw [hd]
    have : (y % 4 * 4 + x % 4) * c.texelBytes + c.texelBytes ≤ 16 * c.texelBytes := by
      rw [← Nat.succ_mul]
      exact Nat.mul_le_mul_right _ (by omega)
    nlinarith [Nat.zero_le (d * (16 * c.texelBytes)), Nat.zero_le ((y % 4 * 4 + x' % 4) * c.texelBytes)]
  · have h5 : x / 4 = x' / 4 := by omega
    have h6 : x % 4 + 1 ≤ x' % 4 := by omega
    rw [h5]
    nlinarith [Nat.mul_le_mul_right c.texelBytes h6]

end Sys2Proof.Machine
end

