-- ==== Sys2Proof/Laws/Blit.lean ====
section
/-! SUPPORT. What a BLIT stores: each pixel's bytes inside the row, the old bytes outside; the
window's newest position never goes back. -/

namespace Sys2Proof.Machine

/-- The stores of a BLIT, one per pixel below NW. -/
theorem mem_blitStores {f : FilterModel} {k : Kind} {w line : Nat} {s : State} {st : Nat × Word} :
    st ∈ blitStores f k w line s ↔
      ∃ j < storedWidth (s.cfg.kind k) s.regs w,
        st = (texelAddr s.cfg s.regs j line,
          pixel f (s.cfg.kind k) k (ctxLut s k) s.src w line j) := by
  simp [blitStores, eq_comm]

/-- They do not overlap (43_filter_blit.md R214). -/
theorem blitStores_disjoint (f : FilterModel) (k : Kind) (w line : Nat) (s : State) :
    (blitStores f k w line s).Pairwise fun x y =>
      x.1 + s.cfg.texelBytes ≤ y.1 ∨ y.1 + s.cfg.texelBytes ≤ x.1 := by
  unfold blitStores
  rw [List.pairwise_map]
  exact List.Pairwise.imp (fun h => .inl (texelAddr_row_lt _ _ _ h)) List.pairwise_lt_range

/-- A stored pixel's byte is found at its place. -/
theorem blitMemory_inside (f : FilterModel) (k : Kind) (w line : Nat) (s : State) {j b : Nat}
    (hj : j < storedWidth (s.cfg.kind k) s.regs w) (hb : b < s.cfg.texelBytes) :
    Memory.read? (blitMemory f k w line s) (texelAddr s.cfg s.regs j line + b) =
      some (byteOf s.cfg.texelBytes (pixel f (s.cfg.kind k) k (ctxLut s k) s.src w line j) b) :=
  dstWriteAll_read?_inside _ _ _ (blitStores_disjoint f k w line s)
    (mem_blitStores.mpr ⟨j, hj, rfl⟩) hb

/-- A byte of no stored pixel reads as before. -/
theorem blitMemory_outside (f : FilterModel) (k : Kind) (w line : Nat) (s : State) (a : Nat)
    (h : ∀ j < storedWidth (s.cfg.kind k) s.regs w,
      ¬(texelAddr s.cfg s.regs j line ≤ a ∧ a < texelAddr s.cfg s.regs j line + s.cfg.texelBytes)) :
    Memory.read? (blitMemory f k w line s) a = Memory.read? s.dst a := by
  refine dstWriteAll_read?_outside _ _ _ _ fun st hst => ?_
  obtain ⟨j, hj, rfl⟩ := mem_blitStores.mp hst
  exact h j hj

/-- TexelAddr as a base and a texel number. -/
theorem texelAddr_eq (c : Config) (r : Regs) (x y : Nat) :
    texelAddr c r x y = r.dstBase.toNat +
      ((y / 4 * r.dstPitch.toNat + x / 4) * 16 + (y % 4 * 4 + x % 4)) * c.texelBytes := by
  unfold texelAddr tileBytes
  ring

/-- nn(j) never decreases (43_filter_blit.md R211). -/
theorem newest_mono {q : KindParams} (hq : q.Valid) {j j' : Nat} (h : j ≤ j') :
    newest q j ≤ newest q j' := by
  have ho := KindParams.outChunk_pos hq
  have l1 := KindParams.lead_lt hq (Nat.mod_lt j ho)
  have hd := Nat.div_le_div_right (c := q.outChunk) h
  unfold newest phase
  rcases Nat.eq_or_lt_of_le hd with hd | hd
  · have m1 := Nat.div_add_mod j q.outChunk
    have m2 := Nat.div_add_mod j' q.outChunk
    rw [hd] at m1 ⊢
    have := KindParams.lead_mono hq (p := j % q.outChunk) (p' := j' % q.outChunk) (by omega)
      (Nat.mod_lt j' ho)
    omega
  · have := Nat.mul_le_mul_right q.inChunk (show j / q.outChunk + 1 ≤ j' / q.outChunk from hd)
    rw [Nat.succ_mul] at this
    omega

/-- The stream reads the row's entries alone (43_filter_blit.md R205, R217). -/
theorem stream_congr {q : KindParams} {b b' : LineBuffer} {w : Nat}
    (h : ∀ i < w, Cells.get? b i = Cells.get? b' i) (n : Int) : stream q b w n = stream q b' w n := by
  have hce := chunks_extras q w
  unfold stream
  split_ifs with h1 h2
  · rfl
  · exact srcRead_congr (h _ (by omega)) _
  · rfl

/-- A byte of a big-endian store is its field of the value (20_memory.md R86). -/
theorem byteOf_toNat (n : Nat) (v : Word) (b : Nat) :
    (byteOf n v b).toNat = bits v (8 * (n - 1 - b) + 7) (8 * (n - 1 - b)) := by
  have h := bits_lt v (8 * (n - 1 - b) + 7) (8 * (n - 1 - b))
  rw [show 8 * (n - 1 - b) + 7 + 1 - 8 * (n - 1 - b) = 8 by omega] at h
  exact (BitVec.toNat_ofNat ..).trans (Nat.mod_eq_of_lt h)

/-- SrcRead of a written entry is its low SAMPLE_BITS(k) bits (20_memory.md R83). -/
theorem srcRead_of_get? {b : LineBuffer} {i : Nat} {v : Half} (h : Cells.get? b i = some v)
    (sampleBits : Nat) : srcRead sampleBits b i = v.toNat % 2 ^ sampleBits := by
  simp [srcRead, h]

/-- The stream of a row whose entries are all written, without a free value
(43_filter_blit.md R205). -/
theorem stream_of_written {q : KindParams} {b : LineBuffer} {w : Nat}
    (h : ∀ i < w, srcWritten b i = true) (n : Int) :
    stream q b w n =
      if n < -(extras q w : Int) ∨ (chunks q w * q.inChunk : Nat) ≤ n then 0
      else ((Cells.get? b (n + extras q w).toNat).getD 0).toNat % 2 ^ q.sampleBits := by
  have hce := chunks_extras q w
  unfold stream
  split_ifs with h1 h2 h3 h4 h5 <;> first | rfl | omega | skip
  obtain ⟨v, hv⟩ := Option.isSome_iff_exists.mp (h (n + extras q w).toNat (by omega))
  simp [srcRead_of_get? hv, hv]

end Sys2Proof.Machine
end

