-- ==== Sys2Proof/Laws/Decode.lean ====
section
/-! SUPPORT. What a legal word is, said once: the inversion of the decoder. -/

namespace Sys2Proof

/-- The fields of a word that decodes to a command, and the command they give
(30_encoding.md R111, R112, R120). -/
theorem decode_cases {c : Word} {i : Instr} (h : decode c = .ok i) :
    (bits c 31 28 = 0 ∧ bits c 27 0 = 0 ∧ i = .nop) ∨
    (bits c 31 28 = 1 ∧ bits c 26 3 = 0 ∧ ∃ p, presetOfCode (bits c 2 0) = some p ∧
      i = .finit (kindOfBit (bits c 27 27)) p) ∨
    (bits c 31 28 = 2 ∧ bits c 26 0 = 0 ∧ i = .ffree (kindOfBit (bits c 27 27))) ∨
    (bits c 31 28 = 3 ∧ bits c 15 0 = 0 ∧
      i = .outw (kindOfBit (bits c 27 27)) (bits c 26 16)) ∨
    (bits c 31 28 = 4 ∧ bits c 15 10 = 0 ∧
      i = .blit (kindOfBit (bits c 27 27)) (bits c 26 16) (bits c 9 0)) ∨
    (bits c 31 28 = 5 ∧ bits c 27 0 = 0 ∧ i = .resolve) := by
  unfold decode ifReservedZero at h
  split at h
  all_goals first
    | (split_ifs at h; cases h; simp_all)
    | skip
  · rename_i h1
    split_ifs at h with h2
    split at h
    · cases h
      exact .inr (.inl ⟨h1, h2, _, ‹_›, rfl⟩)
    · cases h
  · cases h

end Sys2Proof
end

