-- ==== Sys2Proof/Laws/Filter.lean ====
section
/-! SUPPORT. The decode table, the clamp and the width word: one lemma each for what they hold. -/

namespace Sys2Proof.Machine

/-- The table holds LutGen's entry at every code (42_filter_init.md R186). -/
theorem lutAt_buildLut (f : FilterModel) (q : KindParams) (k : Kind) (eff : Preset) (kn : Knobs Int)
    {v : Nat} (h : v < 2 ^ q.sampleBits) :
    lutAt (buildLut f q k eff kn) v = lutGen f k eff kn v := by
  unfold lutAt buildLut
  simp [List.getD, h]

@[simp] theorem buildLut_length (f : FilterModel) (q : KindParams) (k : Kind) (eff : Preset)
    (kn : Knobs Int) : (buildLut f q k eff kn).length = 2 ^ q.sampleBits := by
  simp [buildLut]

/-- A clamped value lies in its range (00_scope.md R11). -/
theorem clamp_mem {lo hi : Int} (h : lo ≤ hi) (v : Int) : lo ≤ clamp v lo hi ∧ clamp v lo hi ≤ hi := by
  unfold clamp
  split_ifs <;> omega

/-- The knobs FINIT captures are in range (42_filter_init.md R184). -/
theorem clampedKnobs_inRange {c : Config} (h : c.Valid) (r : Knobs Half) :
    KnobsInRange c (clampedKnobs c r) := by
  obtain ⟨_, _, _, _, _, ⟨h1, _⟩, ⟨h2, _⟩, ⟨h3, _⟩, ⟨h4, _⟩, ⟨h5, _⟩, _⟩ := h
  exact ⟨clamp_mem h1 _, clamp_mem h2 _, clamp_mem h3 _, clamp_mem h4 _, clamp_mem h5 _⟩

/-- The context FINIT builds does not read the contexts. -/
@[simp] theorem builtContext_setCtx (f : FilterModel) (k k' : Kind) (p : Preset) (s : State)
    (c : Option FilterContext) : builtContext f k p (s.setCtx k' c) = builtContext f k p s := by
  simp [builtContext]

/-- OUTW's word as a number. -/
theorem outwWord_toNat (q : KindParams) (w : Nat) :
    (outwWord q w).toNat = roundedWidth q w % 65536 * 65536 + outputWidth q w % 65536 := by
  unfold outwWord
  rw [BitVec.toNat_append, ← Nat.shiftLeft_add_eq_or_of_lt (BitVec.isLt _), Nat.shiftLeft_eq,
    BitVec.toNat_ofNat, BitVec.toNat_ofNat]

end Sys2Proof.Machine
end

