-- ==== Sys2Proof/Laws/PerInstr.lean ====
section
/-! SUPPORT. Statements about every command as syntax, one lemma per constructor of Instr. Family
Opcode: the encoding of a well-formed command carries its opcode (30_encoding.md R112). -/

namespace Sys2Proof.Laws.Opcode

/-- The `op` column of 30_encoding.md R112. -/
def number : Instr → Nat
  | .nop => 0
  | .finit _ _ => 1
  | .ffree _ => 2
  | .outw _ _ => 3
  | .blit _ _ _ => 4
  | .resolve => 5

/-- Bits 31:28 of the encoding are the command's opcode. -/
def Statement (i : Instr) : Prop := i.wf = true → bits (encode i) 31 28 = number i

theorem nop : Statement .nop := fun _ => by decide

theorem finit (k : Kind) (p : Preset) : Statement (.finit k p) := fun _ => by
  have h := kindBit_lt k
  have h' := presetCode_le p
  rw [encode, bits_ofNat _ _ _ (by omega)]
  simp only [number]
  omega

theorem ffree (k : Kind) : Statement (.ffree k) := fun _ => by
  have h := kindBit_lt k
  rw [encode, bits_ofNat _ _ _ (by omega)]
  simp only [number]
  omega

theorem outw (k : Kind) (w : Nat) : Statement (.outw k w) := fun hw => by
  have h := kindBit_lt k
  simp only [Instr.wf, widthFits, decide_eq_true_eq] at hw
  rw [encode, bits_ofNat _ _ _ (by omega)]
  simp only [number]
  omega

theorem blit (k : Kind) (w line : Nat) : Statement (.blit k w line) := fun hw => by
  have h := kindBit_lt k
  simp only [Instr.wf, widthFits, lineFits, Bool.and_eq_true, decide_eq_true_eq] at hw
  rw [encode, bits_ofNat _ _ _ (by omega)]
  simp only [number]
  omega

theorem resolve : Statement .resolve := fun _ => by decide

end Sys2Proof.Laws.Opcode
end

