-- ==== Sys2Proof/Laws/Registers.lean ====
section
/-! SUPPORT. What a register write can do, said once. -/

namespace Sys2Proof.Machine

/-- A write to a register stores in the read-write registers or in the line buffer, and nowhere
else. -/
theorem storeReg_eq (r : Reg) (v : Word) (s : State) :
    storeReg r v s = (s.setRegs (storeReg r v s).regs).setSrc (storeReg r v s).src := by
  cases r <;> rfl

@[simp] theorem storeReg_ctx (r : Reg) (v : Word) (s : State) (k : Kind) :
    (storeReg r v s).ctx k = s.ctx k := by rw [storeReg_eq]; simp
@[simp] theorem storeReg_ss (r : Reg) (v : Word) (s : State) : (storeReg r v s).ss = s.ss := by
  rw [storeReg_eq]; rfl
@[simp] theorem storeReg_latch (r : Reg) (v : Word) (s : State) :
    (storeReg r v s).latch = s.latch := by rw [storeReg_eq]; rfl
@[simp] theorem storeReg_clipped (r : Reg) (v : Word) (s : State) :
    (storeReg r v s).clipped = s.clipped := by rw [storeReg_eq]; rfl
@[simp] theorem storeReg_outwRes (r : Reg) (v : Word) (s : State) :
    (storeReg r v s).outwRes = s.outwRes := by rw [storeReg_eq]; rfl
@[simp] theorem storeReg_dst (r : Reg) (v : Word) (s : State) : (storeReg r v s).dst = s.dst := by
  rw [storeReg_eq]; rfl
@[simp] theorem storeReg_cfg (r : Reg) (v : Word) (s : State) : (storeReg r v s).cfg = s.cfg := by
  rw [storeReg_eq]; rfl
@[simp] theorem storeReg_host (r : Reg) (v : Word) (s : State) :
    (storeReg r v s).host = s.host := by rw [storeReg_eq]; rfl

/-- The line buffer after a register write: one entry written, or as before. -/
theorem storeReg_src (r : Reg) (v : Word) (s : State) :
    (∃ i, r = .lineBuf i ∧ (storeReg r v s).src = srcWrite s.src i (v.setWidth 16)) ∨
      (storeReg r v s).src = s.src := by
  cases r
  case lineBuf i => exact .inl ⟨i, rfl, rfl⟩
  all_goals exact .inr rfl

/-- An access reaches a register of the map of 10_state.md R34 or an entry of the LINEBUF window. -/
theorem regAt_cases {off : Word} {size : Nat} {r : Reg} (h : regAt off size = some r) :
    size = 4 ∧
      ((∃ i, r = .lineBuf i ∧ i ≤ 2047 ∧ off.toNat = 0x1000 + 4 * i) ∨
        Cells.get? registerMap off.toNat = some r) := by
  unfold regAt regAtOffset at h
  split_ifs at h with h1 h2 h3
  · obtain rfl := Option.some.inj h
    exact ⟨h1, .inl ⟨_, rfl, by omega, by omega⟩⟩
  · exact ⟨h1, .inr h⟩

/-- The map of 10_state.md R34 but for the window lists no entry of the window. -/
theorem registerMap_ne_lineBuf (off i : Nat) : Cells.get? registerMap off ≠ some (.lineBuf i) := by
  intro h
  have := Cells.mem_of_get? h
  simp [registerMap] at this

/-- The entry a LINEBUF access reaches is one of SRC[0..2047]. -/
theorem regAt_lineBuf {off : Word} {size i : Nat} (h : regAt off size = some (.lineBuf i)) :
    i ≤ 2047 := by
  obtain ⟨_, ⟨j, hj, hle, _⟩ | hm⟩ := regAt_cases h
  · cases hj
    exact hle
  · exact absurd hm (registerMap_ne_lineBuf _ _)

/-- Every register of 10_state.md R34 is reached at its offset. -/
theorem regAt_offset {r : Reg} (h : regNamed r = true) : regAt r.offset 4 = some r := by
  cases r
  case lineBuf i =>
    simp only [regNamed, decide_eq_true_eq] at h
    have ho : (BitVec.ofNat 32 (0x1000 + 4 * i)).toNat = 0x1000 + 4 * i := by
      rw [BitVec.toNat_ofNat]
      omega
    simp only [regAt, Reg.offset, regAtOffset, ho, if_true]
    rw [if_pos (by omega), if_pos (by omega)]
    congr 2
    omega
  all_goals decide

theorem registerMap_offsets :
    ∀ e ∈ registerMap, e.2.offset.toNat = e.1 ∧ regNamed e.2 = true := by decide

/-- When an access reaches a register (40_host_access_and_nop.md R140). -/
theorem regAt_eq_some {off : Word} {size : Nat} {r : Reg} :
    regAt off size = some r ↔ regNamed r = true ∧ size = 4 ∧ off = r.offset := by
  constructor
  · intro h
    obtain ⟨rfl, ⟨i, rfl, hi, ho⟩ | h⟩ := regAt_cases h
    · refine ⟨by simp [regNamed, hi], rfl, BitVec.eq_of_toNat_eq ?_⟩
      rw [ho, Reg.offset, BitVec.toNat_ofNat]
      omega
    · have := registerMap_offsets _ (Cells.mem_of_get? h)
      exact ⟨this.2, rfl, BitVec.eq_of_toNat_eq this.1.symm⟩
  · rintro ⟨h, rfl, rfl⟩
    exact regAt_offset h

/-- When an access is illegal (40_host_access_and_nop.md R140). -/
theorem regAt_eq_none {off : Word} {size : Nat} :
    regAt off size = none ↔ ¬∃ r, regNamed r = true ∧ size = 4 ∧ off = r.offset := by
  constructor
  · rintro h ⟨r, h'⟩
    rw [regAt_eq_some.mpr h'] at h
    cases h
  · intro h
    cases hr : regAt off size with
    | none => rfl
    | some r => exact absurd ⟨r, regAt_eq_some.mp hr⟩ h

/-- A register reads the block's state alone, not the host's queue. -/
@[simp] theorem readReg_setPending (s : State) (es : List HostEvent) (r : Reg) :
    readReg (s.setPending es) r = readReg s r := by cases r <;> rfl

end Sys2Proof.Machine
end

