-- ==== Sys2Proof/Laws/Resolve.lean ====
section
/-! SUPPORT. The resolver's inputs field by field, its flag as a proposition, and what RESOLVE
latches. -/

namespace Sys2Proof.Machine

theorem resolveInputs_w (r : Regs) : (resolveInputs r).w = r.rsWidth.toNat := rfl
theorem resolveInputs_h (r : Regs) : (resolveInputs r).h = r.rsHeight.toNat := rfl
theorem resolveInputs_aspectOrig (r : Regs) : (resolveInputs r).aspectOrig = r.rsCtrl.getLsbD 0 := rfl
theorem resolveInputs_widescreen (r : Regs) : (resolveInputs r).widescreen = r.rsCtrl.getLsbD 1 := rfl
theorem resolveInputs_ovsV (r : Regs) : (resolveInputs r).ovsV = r.rsCtrl.getLsbD 2 := rfl
theorem resolveInputs_ovsH (r : Regs) : (resolveInputs r).ovsH = r.rsCtrl.getLsbD 3 := rfl
theorem resolveInputs_htimingWide (r : Regs) : (resolveInputs r).htimingWide = r.rsCtrl.getLsbD 4 := rfl
theorem resolveInputs_emuPal (r : Regs) : (resolveInputs r).emuPal = r.rsCtrl.getLsbD 5 := rfl
theorem resolveInputs_hwPal (r : Regs) : (resolveInputs r).hwPal = r.rsCtrl.getLsbD 6 := rfl
theorem resolveInputs_dblHeight (r : Regs) : (resolveInputs r).dblHeight = r.rsCtrl.getLsbD 7 := rfl
theorem resolveInputs_smooth (r : Regs) : (resolveInputs r).smooth = r.rsCtrl.getLsbD 8 := rfl
theorem resolveInputs_filterOn (r : Regs) : (resolveInputs r).filterOn = r.rsCtrl.getLsbD 9 := rfl
theorem resolveInputs_borderlessNarrow (r : Regs) :
    (resolveInputs r).borderlessNarrow = r.rsCtrl.getLsbD 10 := rfl
theorem resolveInputs_ux (r : Regs) : (resolveInputs r).ux = r.rsUserX.toInt := rfl
theorem resolveInputs_uy (r : Regs) : (resolveInputs r).uy = r.rsUserY.toInt := rfl
theorem resolveInputs_sx (r : Regs) : (resolveInputs r).sx = r.rsXShift.toInt := rfl
theorem resolveInputs_sy (r : Regs) : (resolveInputs r).sy = r.rsYShift.toInt := rfl

/-- INTDBL as the four conditions of 41_scaler_resolve.md R166. -/
theorem intdblFlag_eq_true {x : ResolveInputs} :
    intdblFlag x = true ↔ x.w ≤ 320 ∧ x.smooth = false ∧ x.filterOn = false ∧ 2 * x.w ≤ 720 := by
  unfold intdblFlag
  simp only [Bool.and_eq_true, decide_eq_true_eq, Bool.not_eq_true']
  tauto

/-- trunc32 keeps a value that fits signed 32 bits. -/
theorem trunc32_toInt {v : Int} (h1 : -2147483648 ≤ v) (h2 : v < 2147483648) :
    (trunc32 v).toInt = v := by
  unfold trunc32
  rw [BitVec.toInt_ofInt]
  exact Int.bmod_eq_of_le (by omega) (by omega)

/-- What RESOLVE answers in a live block. -/
theorem execResolve_of_live {s : State} (h : s.latch.fault = false) :
    exec .resolve s = .next (s.setSs (resolution s.cfg (resolveInputs s.regs))) :=
  exec_of_live h .resolve

end Sys2Proof.Machine
end

