-- ==== Sys2Proof/Laws/Script.lean ====
section
/-! SUPPORT. A script of one statement, and the operand mask of KNOBS. -/

namespace Sys2Proof.Machine

/-- A script of one statement is its accesses, if its operands are in range. -/
theorem assemble_singleton (st : Stmt) :
    assemble [st] = if st.inRange = true then some st.events else none := by
  unfold assemble
  simp

/-- The low 16 bits of a signed operand are its AND with 0xFFFF (30_encoding.md R132). -/
theorem and16_eq (v : Int) : and16 v = BitVec.ofInt 32 v &&& 0xFFFF := by
  unfold and16
  apply BitVec.eq_of_toNat_eq
  rw [BitVec.toNat_and]
  simp only [BitVec.toNat_setWidth, BitVec.toNat_ofInt]
  rw [show BitVec.toNat (65535 : Word) = 2 ^ 16 - 1 from rfl, Nat.and_two_pow_sub_one_eq_mod]
  omega

end Sys2Proof.Machine
end

