-- ==== Sys2Proof/Laws/Step.lean ====
section
/-! SUPPORT. What a step can do, said once: one inversion lemma per host primitive and for step. -/

namespace Sys2Proof.Machine

/-- What a host write can answer (40_host_access_and_nop.md R141). -/
theorem hostWrite_cases {off : Word} {size : Nat} {v : Word} {s t : State}
    (h : hostWrite off size v s = .next t) :
    (s.latch.fault = true ∧ t = s) ∨
      (s.latch.fault = false ∧
        ((regAt off size = none ∧ t = raise .bus off s) ∨
          (regAt off size = some .cmd ∧ ∃ i, decode v = .ok i ∧ exec i s = .next t) ∨
          (regAt off size = some .cmd ∧ (∃ e, decode v = .error e) ∧ t = raise .illCmd v s) ∨
          ∃ r, r ≠ .cmd ∧ regAt off size = some r ∧ t = storeReg r v s)) := by
  unfold hostWrite at h
  split at h
  · cases h; exact .inl ⟨‹_›, rfl⟩
  · rename_i hf
    refine .inr ⟨by simpa using hf, ?_⟩
    split at h
    · cases h; exact .inl ⟨‹_›, rfl⟩
    · unfold writeCmd at h
      split at h
      · exact .inr (.inl ⟨‹_›, _, ‹_›, h⟩)
      · cases h; exact .inr (.inr (.inl ⟨‹_›, ⟨_, ‹_›⟩, rfl⟩))
    · rename_i r hr hne
      cases h
      exact .inr (.inr (.inr ⟨r, fun hc => hr (by simp_all), by assumption, rfl⟩))

/-- What a host read does (40_host_access_and_nop.md R140). -/
theorem hostRead_cases (off : Word) (size : Nat) (s : State) :
    (∃ r, regAt off size = some r ∧ hostRead off size s = s.logRead (readReg s r)) ∨
      (regAt off size = none ∧ hostRead off size s = (raise .bus off s).logRead 0) := by
  unfold hostRead
  cases h : regAt off size <;> simp

/-- What a step can answer: with the next host event taken off the queue, that event's effect. -/
theorem step_cases {s t : State} (h : step s = .next t) :
    s.cfg.Valid ∧
      ((s.host.pending = [] ∧ t = s) ∨
        ∃ e rest, s.host.pending = e :: rest ∧ hostEvent e (s.setPending rest) = .next t) := by
  unfold step advance at h
  split at h
  · refine ⟨‹_›, ?_⟩
    unfold serveHost at h
    split at h
    · cases h; exact .inl ⟨‹_›, rfl⟩
    · exact .inr ⟨_, _, ‹_›, h⟩
  · cases h

/-- A step with an event pending, on a configuration of this hardware. -/
theorem step_of_pending {s : State} (hc : s.cfg.Valid) {e : HostEvent} {rest : List HostEvent}
    (hp : s.host.pending = e :: rest) : step s = hostEvent e (s.setPending rest) := by
  unfold step advance serveHost
  rw [if_pos hc, hp]

/-- A step on a configuration of this hardware never stops. -/
theorem step_answers {s : State} (hc : s.cfg.Valid) : ∃ t, step s = .next t := by
  unfold step advance serveHost
  rw [if_pos hc]
  split
  · exact ⟨_, rfl⟩
  · rename_i e rest _
    cases e with
    | read off size => exact ⟨_, rfl⟩
    | rst => exact ⟨_, rfl⟩
    | write off size v =>
      show ∃ t, hostWrite off size v (s.setPending rest) = .next t
      unfold hostWrite
      split
      · exact ⟨_, rfl⟩
      · split
        · exact ⟨_, rfl⟩
        · unfold writeCmd
          split
          · rw [exec_eq_unlessFrozen]
            unfold unlessFrozen
            split <;> exact ⟨_, rfl⟩
          · exact ⟨_, rfl⟩
        · exact ⟨_, rfl⟩

end Sys2Proof.Machine
end

