-- ==== Sys2Proof/Tests/Slice0.lean ====
section
/-! SUPPORT. Tests with expected values from 95_test_vectors.md and the worked examples of the
rules, the smoke tests of the checks, and for every statement with hypotheses a witness. -/

namespace Sys2Proof.Tests

open Sys2Proof Sys2Proof.Machine Sys2Proof.Statement

/-! ## Configuration TC (95_test_vectors.md section 0) -/

/-- B(eff) of configuration TC for the named presets. -/
def tcBase : Preset → Nat
  | .off => 0
  | .composite => 0
  | .svideo => 1
  | .rgb => 2
  | .custom => 0

/-- The stand-in functions of configuration TC; its numbers are `Config.standIn`. -/
def tcModel : FilterModel where
  lutNamed := fun _ p v => ⟨(v + tcBase p) % 256⟩
  lutCustom := fun _ kn v =>
    ⟨((v : Int) + kn.sharpness / 64 + kn.resolution / 64 + kn.artifacts / 64 + kn.fringing / 64 +
      kn.bleed / 64).toNat % 256⟩
  mix := fun _ _ _ win =>
    BitVec.ofNat 32
      (256 * (win.head?.map (·.token)).getD 0 + (win.getLast?.map (·.token)).getD 0)
  colorOf := fun _ v => BitVec.ofNat 32 (257 * v)
  artifactFree := fun _ p _ => p = .composite

/-- TC meets the constraints of 00_scope.md R7 and R9 (a), (b). -/
theorem test_tc_valid : Config.standIn.Valid := by decide

/-! ## Small states -/

/-- The state an outcome answers. -/
def after (o : Host.Outcome State Fault Refusal) : State :=
  match o with
  | .next s => s
  | .fault _ => State.reset
  | .refused _ => State.reset

/-- SURFACE base, pitch, lines. -/
def surface (base : Word) (pitch : BitVec 12) (lines : BitVec 11) (s : State) : State :=
  s.setRegs { s.regs with dstBase := base, dstPitch := pitch, dstLines := lines }

/-- The row of V-BLIT-1. -/
def row5 : LineBuffer := [(0, 0x11), (1, 0x22), (2, 0x33), (3, 0x44), (4, 0x55)]

/-- Reset, then FINIT.LR COMPOSITE in TC. -/
def composite : State := finitEffect tcModel .lr .composite State.reset

/-- The start of V-BLIT-1. -/
def ready : State := (surface 0x1000 4 8 composite).setSrc row5

/-- A host access that comes next, after reset. -/
def live (e : HostEvent) : State := State.reset.setPending [e]

/-- The frozen state of V-FAULT-3. -/
def frozen : State := State.reset.setLatch { fault := true, fcode := 3, fcmd := 0x40050000 }

/-- RS_* registers as a row of 95_test_vectors.md 2.3 sets them, after reset. -/
def resolver (w h : Half) (ctrl : BitVec 11) (ux uy : Half) : State :=
  State.reset.setRegs
    { State.reset.regs with
      rsWidth := w, rsHeight := h, rsCtrl := ctrl, rsUserX := ux, rsUserY := uy }

/-- (SC_XSCALE, SC_YSCALE, STATUS) after RESOLVE. -/
def scales (s : State) : Word × Word × Word :=
  (readReg (resolveEffect s) .scXScale, readReg (resolveEffect s) .scYScale,
    readReg (resolveEffect s) .status)

/-- The 16-bit texel the stored bytes at `a` and `a + 1` make, most significant first. -/
def texel (m : Memory) (a : Nat) : Option Nat :=
  match Memory.read? m a, Memory.read? m (a + 1) with
  | some h, some l => some (h.toNat * 256 + l.toNat)
  | _, _ => none

/-! ## Decode: words written field by field from 30_encoding.md R111 -/

theorem test_decode_nop : decode (0#4 ++ 0#28) = .ok .nop := by decide
theorem test_decode_finit : decode (1#4 ++ 1#1 ++ 0#24 ++ 4#3) = .ok (.finit .hr .custom) := by decide
theorem test_decode_ffree : decode (2#4 ++ 1#1 ++ 0#27) = .ok (.ffree .hr) := by decide
theorem test_decode_outw : decode (3#4 ++ 1#1 ++ 320#11 ++ 0#16) = .ok (.outw .hr 320) := by decide
theorem test_decode_blit :
    decode (4#4 ++ 0#1 ++ 5#11 ++ 0#6 ++ 1023#10) = .ok (.blit .lr 5 1023) := by decide
theorem test_decode_resolve : decode (5#4 ++ 0#28) = .ok .resolve := by decide

/-- V-ENC-14 and V-ENC-19. -/
theorem test_decode_extremes :
    decode 0x47FF03FF = .ok (.blit .lr 2047 1023) ∧ decode 0x40000000 = .ok (.blit .lr 0 0) := by
  decide

/-- V-ENC-5, 6, 8, 11, 15, 17, 18. -/
theorem test_decode_illegal :
    decode 0x10000005 = .error .preset ∧ decode 0x10000009 = .error .reservedBit ∧
    decode 0x20000001 = .error .reservedBit ∧ decode 0x31000001 = .error .reservedBit ∧
    decode 0x40058005 = .error .reservedBit ∧ decode 0x58000000 = .error .reservedBit ∧
    decode 0x60000000 = .error .opcode ∧ decode 0xFFFFFFFF = .error .opcode := by decide

/-- The host's two hooks: V-ENC-9, and V-OUTW-6 as the first command after reset. -/
theorem test_withFetchWord :
    decodeTableWord 32 0x31000000 = some (.outw .lr 256) ∧
    (after (step (State.reset.withFetchWord 32 0x31000000))).outwRes = 0x01C401C7 := by decide

/-! ## Well-formedness: ill-formed terms the checks refuse -/

theorem test_wf_width : Instr.wf (.outw .lr 2048) = false ∧ Instr.wf (.blit .lr 2048 0) = false := by
  decide
theorem test_wf_line : Instr.wf (.blit .hr 5 1024) = false := by decide

/-- LEAD(LR, ·) not onto 0..3. -/
def badLead : KindParams := { KindParams.default 4 7 with lead := [0, 0, 0, 0, 0, 0, 3] }

/-- YCAL_50 = 0. -/
def badYcal : Config := { Config.standIn with ycal50 := 0 }

/-- TEXEL_BYTES = 3. -/
def badTexel : Config := { Config.standIn with texelBytes := 3 }

/-- 93_implementation_defined.md U30: IN > OUT, LEAD not onto, YCAL = 0, TEXEL_BYTES = 3. -/
theorem test_config_refused :
    ¬(KindParams.default 4 3).Valid ∧ ¬badLead.Valid ∧ ¬badYcal.Valid ∧ ¬badTexel.Valid :=
  ⟨by decide, by decide, by decide, by decide⟩

/-- A step on no configuration of this hardware is refused by name. -/
theorem test_step_bad_configuration :
    step { State.reset with cfg := badTexel } =
      .refused .badConfiguration := by
  unfold step advance
  exact if_neg (by decide)

/-- 30_encoding.md R130, R132: operands out of range reject the script. -/
theorem test_script_rejected :
    assemble [.src 2048 0] = none ∧ assemble [.command (.blit .lr 5 1024)] = none ∧
    assemble [.knobs 32768 0 0 0 0] = none ∧ assemble [.command .nop, .cmd 4294967296] = none := by
  decide

/-- Statements 4 to 6 of program P1 and the access column of statement 5 of P5. -/
theorem test_script_accesses :
    assemble [.wr .rsXShift 0xFFFC, .rd .status, .command .resolve] =
      some [.write 0x54 4 0xFFFC, .read 0x04 4, .write 0 4 0x50000000] ∧
    (Stmt.knobs 0x0300 (-128) 64 (-32768) 256).events =
      [.write 0x10 4 0x300, .write 0x14 4 0xFF80, .write 0x18 4 0x40, .write 0x1C 4 0x8000,
        .write 0x20 4 0x100] := by decide

/-! ## Host access -/

/-- V-HOST-2, V-HOST-3. -/
theorem test_host_fields :
    readReg (storeReg .knobBleed 0xFFFFFF80 State.reset) .knobBleed = 0x0000FF80 ∧
    (storeReg .knobBleed 0xFFFFFF80 State.reset).regs.knobs.bleed.toInt = -128 ∧
    readReg (storeReg .dstPitch 0xFFFFFFFF State.reset) .dstPitch = 0x00000FFF := by decide

/-- V-HOST-7: LINEBUF[3]. -/
theorem test_host_linebuf :
    (after (step (live (.write 0x100C 4 0x12345678)))).src = [(3, 0x5678)] ∧
    (after (step (live (.read 0x100C 4)))).host.reads = [0] := by decide

/-- V-HOST-8, V-HOST-10: E_BUS of a read and of a write. -/
theorem test_host_bus :
    (after (step (live (.read 0x34 4)))).latch = { fault := true, fcode := 2, fcmd := 0x34 } ∧
    (after (step (live (.read 0x34 4)))).host.reads = [0] ∧
    (after (step (live (.write 0x12 4 5)))).latch = { fault := true, fcode := 2, fcmd := 0x12 } ∧
    (after (step (live (.write 0x12 4 5)))).regs = State.reset.regs := by decide

/-- V-HOST-6, V-HOST-11: a write to STATUS, a read of CMD; V-OUTW-6's word read from OUTW_RES. -/
theorem test_host_ro_wo :
    readReg (after (step (live (.write 0x04 4 0xFFFFFFFF)))) .status = 0 ∧
    (after (step (live (.read 0x00 4)))).host.reads = [0] ∧
    (after (step ((outwEffect .lr 256 State.reset).setPending [.read 0x30 4]))).host.reads =
      [0x01C401C7] := by decide

/-- V-FAULT-10: in the frozen state a write is ignored and an illegal read returns 0 and keeps the
first fault. -/
theorem test_frozen :
    (after (step (frozen.setPending [.write 0x28 4 4]))).regs = State.reset.regs ∧
    (after (step (frozen.setPending [.read 0x5C 4]))).latch.fcode = 3 ∧
    (after (step (frozen.setPending [.read 0x5C 4]))).host.reads = [0] ∧
    readReg frozen .status = 1 := by decide

/-- 70_reset_and_hazards.md R270, R272: reset from the frozen state. -/
theorem test_reset_event :
    (after (step ((frozen.setRow [(8, 1)] true).setPending [.rst]))).latch.fault = false ∧
    (after (step ((frozen.setRow [(8, 1)] true).setPending [.rst]))).dst = [(8, 1)] ∧
    (after (step ((frozen.setRow [(8, 1)] true).setPending [.rst]))).clipped = false := by decide

/-! ## Commands -/

/-- V-NOP-1, V-NOP-2. -/
theorem test_nop :
    readReg (after (step (live (.write 0 4 0x00000000)))) .status = 0 ∧
    (after (step (live (.write 0 4 0x00000001)))).latch =
      { fault := true, fcode := 1, fcmd := 0x00000001 } := by decide

/-- The registers of V-FIN-3. -/
def knobbed : State :=
  State.reset.setRegs
    { State.reset.regs with
      knobs :=
        { sharpness := 0x0300, resolution := 0xFF80, artifacts := 0x0040, fringing := 0x8000,
          bleed := 0x0100 } }

/-- V-FIN-3: clamped knobs, CTXV_HR, and lut(v) = v + 3. -/
theorem test_finit_custom :
    ((finitEffect tcModel .hr .custom knobbed).ctxHr.map (·.knobs)) =
      some { sharpness := 256, resolution := -128, artifacts := 64, fringing := -256, bleed := 256 } ∧
    readReg (finitEffect tcModel .hr .custom knobbed) .status = 4 ∧
    (lutAt (ctxLut (finitEffect tcModel .hr .custom knobbed) .hr) 254).token = 1 := by decide

/-- V-FIN-6: RGB under RGB_FALLTHROUGH(HR) builds the custom table; V-FIN-5: else its own. -/
theorem test_finit_rgb :
    (let s := { knobbed with
        cfg := { Config.standIn with hr := { Config.standIn.hr with rgbFallthrough := true } } }
     (lutAt (ctxLut (finitEffect tcModel .hr .rgb s) .hr) 0).token = 3 ∧
     (finitEffect tcModel .hr .rgb s).ctxHr.map (·.preset) = some .rgb) ∧
    (lutAt (ctxLut (finitEffect tcModel .lr .rgb State.reset) .lr) 0).token = 2 := by decide

/-- V-FIN-9, V-FIN-7. -/
theorem test_ffree :
    readReg (releaseCtx .lr (finitEffect tcModel .hr .rgb composite)) .status = 4 ∧
    readReg (finitEffect tcModel .lr .off composite) .status = 0 := by decide

/-- V-OUTW-1, 6, 8, 17, 23. -/
theorem test_outw :
    (outwEffect .lr 4 State.reset).outwRes = 0x000C000E ∧
    (outwEffect .lr 256 State.reset).outwRes = 0x01C401C7 ∧
    (outwEffect .lr 2047 State.reset).outwRes = 0x0E000E00 ∧
    (outwEffect .hr 4 State.reset).outwRes = 0x00100010 ∧
    (outwEffect .hr 320 State.reset).outwRes = 0x02880288 := by decide

/-- V-OUTW-25. -/
theorem test_outw_width :
    (outwEffect .lr 3 State.reset).latch = { fault := true, fcode := 4, fcmd := 0x30030000 } ∧
    (outwEffect .lr 3 State.reset).outwRes = 0 := by decide

/-- V-BLIT-1: the 14 texels, the byte after the row's last one, and STATUS. -/
theorem test_blit_row :
    [0x1088, 0x108A, 0x108C, 0x108E, 0x10A8, 0x10AA, 0x10AC, 0x10AE, 0x10C8, 0x10CA, 0x10CC, 0x10CE,
      0x10E8, 0x10EA, 0x10EC].map (texel (blitEffect tcModel .lr 5 5 ready).dst) =
      [some 0x0022, some 0x0022, some 0x0033, some 0x0033, some 0x0044, some 0x0044, some 0x0055,
        some 0, some 0, some 0, some 0, some 0x1100, some 0x1100, some 0x2200, none] ∧
    readReg (blitEffect tcModel .lr 5 5 ready) .status = 2 := by decide

/-- V-BLIT-1's pixel 9 (c = 1, p = 2, window positions -2..5): Mix is given kind LR, LINE = 5,
phase 2 and the window 0, 0x11, 0x22, 0x33, 0x44, 0x55, 0, 0, oldest first. -/
theorem test_mix_arguments :
    (let f := { tcModel with
       mix := fun k y p win =>
         if win.map (·.token) = [0, 0x11, 0x22, 0x33, 0x44, 0x55, 0, 0] then
           BitVec.ofNat 32 ((if k = .lr then 0x1000 else 0) + 0x100 * y + p) else 0 }
     texel (blitEffect f .lr 5 5 ready).dst 0x10CA = some 0x1502) := by decide

/-- V-BLIT-2: clipped at a pitch of 3 tiles; nothing stored from 0x10B0 up. -/
theorem test_blit_clipped :
    (let t := blitEffect tcModel .lr 5 5 (surface 0x1000 3 8 ready)
     [0x1068, 0x106E, 0x108E, 0x10A8, 0x10AE, 0x10C8].map (texel t.dst) =
       [some 0x0022, some 0x0033, some 0, some 0, some 0x1100, none] ∧
     t.dst.length = 24 ∧ readReg t .status = 0x22) := by decide

/-- V-ADDR-2, V-ADDR-4 (lx and ly differ), V-ADDR-3, V-ADDR-5 (tx and ty differ). -/
theorem test_texelAddr_order :
    (let a := texelAddr Config.standIn (surface 0x1000 4 8 State.reset).regs
     a 3 0 = 0x1006 ∧ a 0 1 = 0x1008 ∧ a 4 0 = 0x1020 ∧ a 0 4 = 0x1080) := by decide

/-- V-ADDR-6, V-ADDR-8; with TEXEL_BYTES = 4, 0x11D4; and a 4-byte store's order. -/
theorem test_texelAddr :
    texelAddr Config.standIn (surface 0x1000 4 8 State.reset).regs 13 5 = 0x10EA ∧
    texelAddr Config.standIn (surface 0 3 0 State.reset).regs 11 1023 = 0x5FFE ∧
    texelAddr { Config.standIn with texelBytes := 4 } (surface 0x1000 4 8 State.reset).regs 13 5 =
      0x11D4 ∧
    dstWrite [] 0x11D4 4 0x11223344 =
      [(0x11D4, 0x11), (0x11D5, 0x22), (0x11D6, 0x33), (0x11D7, 0x44)] := by decide

/-- V-RES-4, 5, 6, 20, 22: original mode. -/
theorem test_resolve_original :
    scales (resolver 256 224 0x041 0 0) = (0x12C, 0x86, 0x18) ∧
    scales (resolver 256 240 0x021 0 0) = (0x12C, 0x64, 0x18) ∧
    scales (resolver 320 224 0x01B 0 0) = (0xF7, 0x70, 0x18) ∧
    scales (resolver 65535 65535 0x061 0 0) = (0x12C, 0x7FFF, 0x08) ∧
    scales (resolver 256 224 0x411 0 0) = (0x15E, 0x70, 0x18) := by decide

/-- V-RES-9, 12, 14, 15, 17, 18: manual mode and INTDBL. -/
theorem test_resolve_manual :
    scales (resolver 256 192 0x404 0 0) = (0x140, 0x60, 0x18) ∧
    scales (resolver 256 192 0x400 0x0005 0xFFFD) = (0x145, 0x6D, 0x18) ∧
    scales (resolver 256 224 0x080 0 0xFFFD) = (0x140, 0xDA, 0x18) ∧
    scales (resolver 321 224 0x010 0 0) = (0x141, 0x70, 0x08) ∧
    scales (resolver 320 224 0x210 0 0) = (0x140, 0x70, 0x08) ∧
    scales (resolver 0 0 0x000 0xFFF9 0) = (0xFFFFFFF9, 0, 0x18) := by decide

/-! ## Witnesses: the hypotheses of every statement are met together by a concrete state and
operands, at a boundary for each clause -/

theorem live_next (e : HostEvent) : NextAccess (live e) e [] := ⟨test_tc_valid, rfl, rfl⟩

theorem lr_valid : Config.standIn.lr.Valid := test_tc_valid.1

/-- A chunk of one sample. -/
def oneSample : KindParams := KindParams.default 1 1

theorem oneSample_valid : oneSample.Valid := by decide

theorem ready_check : blitCheck .lr 5 5 ready = none := by decide

theorem ready_completes :
    ∃ t, exec (.blit .lr 5 5) ready = .next t ∧ t.latch.fault = false := by
  refine ⟨_, rfl, ?_⟩
  simp only [blitEffect, ready_check]
  rfl

/-- V-FAULT-3 as an answer of exec. -/
theorem blit_faults :
    ∃ t, exec (.blit .lr 5 0) State.reset = .next t ∧ t.latch.fault = true := by
  refine ⟨_, rfl, ?_⟩
  have : blitCheck .lr 5 0 State.reset = some .noCtx := by decide
  simp only [blitEffect, this]
  rfl

theorem unmapped_read (size : Nat) :
    ¬∃ r, regNamed r = true ∧ size = 4 ∧ (0x34 : Word) = r.offset := by
  rintro ⟨r, hr, -, h⟩
  cases r
  case lineBuf i =>
    have h' := congrArg BitVec.toNat h
    simp only [regNamed, decide_eq_true_eq] at hr
    simp [Reg.offset] at h'
    omega
  all_goals exact absurd h (by decide)

theorem witness_DecodeOfEncode :
    Instr.wf (.blit .hr 2047 1023) = true ∧ Instr.wf (.outw .lr 0) = true := by decide

theorem witness_EncodeOfDecode : decode 0x47FF03FF = .ok (.blit .lr 2047 1023) := by decide

theorem witness_OpcodeMapDecides : 6 ≤ bits 0x60000000 31 28 ∧ 6 ≤ bits 0xFFFFFFFF 31 28 := by decide

theorem witness_DecodedOperands :
    decode 0x18000004 = .ok (.finit .hr .custom) ∧ decode 0x20000000 = .ok (.ffree .lr) ∧
    decode 0x3FFF0000 = .ok (.outw .hr 2047) ∧ decode 0x47FF03FF = .ok (.blit .lr 2047 1023) := by
  decide

theorem witness_StepRunsDecodedCommand :
    (NextAccess (live (.write 0 4 0x50000000)) (.write 0 4 0x50000000) [] ∧
      decode 0x50000000 = .ok .resolve) ∧
    State.reset.cfg.Valid ∧ State.reset.latch.fault = false ∧
      decodeTableWord 32 0x31000000 = some (.outw .lr 256) :=
  ⟨⟨live_next _, by decide⟩, test_tc_valid, rfl, by decide⟩

/-- Each clause of `IllegalWord`. -/
theorem witness_IllegalWordRaisesIllCmd :
    NextAccess (live (.write 0 4 0x60000000)) (.write 0 4 0x60000000) [] ∧
    ∀ c ∈ ([0x60000000, 0x00000001, 0x14000000, 0x20000001, 0x30008000, 0x40000400, 0x58000000,
      0x10000005] : List Word), IllegalWord c :=
  ⟨live_next _, by unfold IllegalWord; intro c hc; fin_cases hc <;> decide⟩

theorem witness_FrozenBlockIgnoresWrites :
    frozen.cfg.Valid ∧ frozen.latch.fault = true ∧ regNamed (.lineBuf 2047) = true ∧
    (∃ t, step (frozen.setPending [.write 0 4 0x50000000]) = .next t) ∧
    ∃ t, step (frozen.setPending [.rst]) = .next t :=
  ⟨test_tc_valid, rfl, by decide, step_answers (by exact test_tc_valid),
    step_answers (by exact test_tc_valid)⟩

theorem witness_FirstFaultIsKept :
    frozen.latch.fault = true ∧ regAt 0x5C 4 = none ∧
    (∃ t, step (frozen.setPending [.read 0x5C 4]) = .next t) ∧
    (∃ t, step (frozen.setPending [.write 0x28 4 4]) = .next t) ∧
    ∃ t, step (frozen.setPending [.rst]) = .next t :=
  ⟨rfl, by decide, step_answers (by exact test_tc_valid), step_answers (by exact test_tc_valid),
    step_answers (by exact test_tc_valid)⟩

theorem witness_FaultsArePrecise :
    (NextAccess (live (.read 0x34 4)) (.read 0x34 4) [] ∧
      ∃ t, step (live (.read 0x34 4)) = .next t ∧ t.latch.fault = true) ∧
    NextAccess (live (.write 0 4 0x60000000)) (.write 0 4 0x60000000) [] ∧
      ∃ t, step (live (.write 0 4 0x60000000)) = .next t ∧ t.latch.fault = true :=
  ⟨⟨live_next _, (raise .bus 0x34 State.reset).logRead 0,
      (step_of_pending test_tc_valid rfl).trans rfl, rfl⟩, live_next _,
    raise .illCmd 0x60000000 State.reset, (step_of_pending test_tc_valid rfl).trans rfl, rfl⟩

theorem witness_HostReadAnswers :
    (live (.read 0x2FFC 4)).cfg.Valid ∧ (live (.read 0x2FFC 4)).host.pending = [.read 0x2FFC 4] ∧
    regNamed (.lineBuf 2047) = true ∧ (0x2FFC : Word) = (Reg.lineBuf 2047).offset ∧
    (Reg.lineBuf 2047).access = .wo ∧ (¬∃ r, regNamed r = true ∧ 4 = 4 ∧ (0x34 : Word) = r.offset) :=
  ⟨test_tc_valid, rfl, by decide, by decide, rfl, unmapped_read 4⟩

theorem witness_MappedOffsets :
    (0x006C, .scYShift, .ro) ∈ registerTable ∧ (0x0000, .cmd, .wo) ∈ registerTable ∧ 2047 ≤ 2047 ∧
    regNamed (.lineBuf 2047) = true ∧ regNamed .cmd = true := by decide

theorem witness_IllegalAndReadOnlyWrites :
    NextAccess (live (.write 0x34 4 5)) (.write 0x34 4 5) [] ∧
    (¬∃ r, regNamed r = true ∧ 4 = 4 ∧ (0x34 : Word) = r.offset) ∧
    (¬∃ r, regNamed r = true ∧ 2 = 4 ∧ (0x10 : Word) = r.offset) ∧
    NextAccess (live (.write 0x6C 4 5)) (.write 0x6C 4 5) [] ∧ Reg.scYShift.access = .ro ∧
    (0x6C : Word) = Reg.scYShift.offset :=
  ⟨live_next _, unmapped_read 4, fun ⟨_, _, h, _⟩ => absurd h (by decide), live_next _, rfl, rfl⟩

theorem witness_LinebufWriteStoresSample :
    NextAccess (live (.write (BitVec.ofNat 32 (0x1000 + 4 * 2047)) 4 0x12345678))
      (.write (BitVec.ofNat 32 (0x1000 + 4 * 2047)) 4 0x12345678) [] ∧
    (live (.read (BitVec.ofNat 32 (0x1000 + 4 * 0)) 4)).cfg.Valid :=
  ⟨live_next _, test_tc_valid⟩

theorem witness_RegisterWriteReadsBack :
    NextAccess (live (.write Reg.rsCtrl.offset 4 0xFFFFFFFF)) (.write Reg.rsCtrl.offset 4 0xFFFFFFFF) [] ∧
    NextAccess (live (.write Reg.dstBase.offset 4 0xFFFFFFE0))
      (.write Reg.dstBase.offset 4 0xFFFFFFE0) [] :=
  ⟨live_next _, live_next _⟩

theorem witness_EveryStepTakesOneAccess :
    (∃ t, step State.reset = .next t) ∧ State.reset.host.pending = [] ∧
    (∃ t, step (live (.read 0x04 4)) = .next t) ∧ ∃ t, step (live .rst) = .next t :=
  ⟨step_answers test_tc_valid, rfl, step_answers test_tc_valid, step_answers test_tc_valid⟩

theorem witness_ResetFromAnyState :
    (frozen.setPending [.rst]).cfg.Valid ∧ (frozen.setPending [.rst]).host.pending = [.rst] :=
  ⟨test_tc_valid, rfl⟩

theorem witness_NopDoesNothing :
    (NextAccess (live (.write 0 4 1)) (.write 0 4 1) [] ∧ 1 ≤ (1 : Word).toNat) ∧
    NextAccess (live (.write 0 4 0x0FFFFFFF)) (.write 0 4 0x0FFFFFFF) [] ∧
      (0x0FFFFFFF : Word).toNat ≤ 0x0FFFFFFF :=
  ⟨⟨live_next _, by decide⟩, live_next _, by decide⟩

theorem witness_FinitBuildsContext :
    knobbed.latch.fault = false ∧ Preset.rgb ≠ .off ∧ Preset.custom ≠ .off ∧
    255 < 2 ^ (knobbed.cfg.kind .hr).sampleBits := by decide

theorem witness_FinitOffReleases : composite.latch.fault = false := rfl

theorem witness_FfreeReleases :
    composite.latch.fault = false ∧ composite.ctx .hr = none ∧ composite.ctx .lr ≠ none :=
  ⟨rfl, rfl, by decide⟩

theorem witness_FinitAndFfreeFrame :
    (∃ t, exec (.ffree .lr) composite = .next t) ∧ (∃ t, exec (.finit .lr .rgb) composite = .next t) ∧
    Kind.hr ≠ .lr ∧ composite.latch.fault = false :=
  ⟨⟨_, rfl⟩, ⟨_, rfl⟩, by decide, rfl⟩

/-- RGB_FALLTHROUGH(HR) = true, with the knobs of V-FIN-3. -/
def fallsThrough : State :=
  { knobbed with
    cfg := { Config.standIn with hr := { Config.standIn.hr with rgbFallthrough := true } } }

theorem witness_TableDependsOnItsArguments :
    effectivePreset (fallsThrough.cfg.kind .hr) .rgb = .custom ∧
    effectivePreset (fallsThrough.cfg.kind .hr) .custom = .custom ∧
    clampedKnobs fallsThrough.cfg fallsThrough.regs.knobs =
      clampedKnobs fallsThrough.cfg (setKnobs fallsThrough fun kn => { kn with sharpness := 256 }).regs.knobs ∧
    (∃ t, exec (.finit .hr .rgb) fallsThrough = .next t) ∧
    ∃ t, exec (.finit .hr .custom)
      (setKnobs fallsThrough fun kn => { kn with sharpness := 256 }) = .next t :=
  ⟨by decide, by decide, by decide, ⟨_, rfl⟩, _, rfl⟩

theorem witness_RgbFallsThroughToCustom :
    fallsThrough.latch.fault = false ∧ (fallsThrough.cfg.kind .hr).rgbFallthrough = true ∧
    (∃ t, exec (.finit .hr .rgb) fallsThrough = .next t) ∧
    ∃ u, exec (.finit .hr .custom) fallsThrough = .next u :=
  ⟨rfl, rfl, ⟨_, rfl⟩, _, rfl⟩

theorem witness_RepeatingChangesNothing :
    (∃ t, exec .resolve (resolver 256 192 0x400 0 0) = .next t) ∧
    ∃ t, exec (.finit .hr .custom) knobbed = .next t :=
  ⟨⟨_, rfl⟩, _, rfl⟩

theorem witness_OutwWritesBothWidths :
    State.reset.cfg.Valid ∧ State.reset.latch.fault = false ∧
    (State.reset.cfg.kind .lr).inChunk ≤ 4 ∧ (State.reset.cfg.kind .lr).inChunk ≤ 2047 ∧
    3 < (State.reset.cfg.kind .lr).inChunk ∧
    NextAccess (live (.write 0 4 0x31000001)) (.write 0 4 0x31000001) [] ∧
    bits 0x31000001 31 28 = 3 ∧ bits 0x31000001 15 0 ≠ 0 :=
  ⟨test_tc_valid, rfl, by decide, by decide, by decide, live_next _, by decide, by decide⟩

theorem witness_BoundaryWidths :
    (Config.standIn.lr.Valid ∧ 2 ≤ Config.standIn.lr.inChunk) ∧
    oneSample.Valid ∧ oneSample.inChunk = 1 :=
  ⟨⟨lr_valid, by decide⟩, oneSample_valid, rfl⟩

/-- The premises, the last byte of the last pixel, and the byte after it. -/
theorem witness_BlitStoresRow :
    ready.cfg.Valid ∧ ready.latch.fault = false ∧ BlitReady .lr 5 5 ready ∧
    (ready.ctx .lr).isSome = true ∧ 13 < min ((5 / 4 + 1) * 7) (4 * ready.regs.dstPitch.toNat) ∧
    1 < ready.cfg.texelBytes ∧
    ∀ j < 14, ∀ b < ready.cfg.texelBytes, 0x10EC ≠ texelAddr ready.cfg ready.regs j 5 + b :=
  ⟨test_tc_valid, rfl, by unfold BlitReady; decide, by decide, by decide, by decide, by decide⟩

theorem witness_BlitFrame :
    (∃ t, exec (.blit .lr 5 5) ready = .next t ∧ t.latch.fault = false) ∧
    ∃ t, exec (.blit .lr 5 0) State.reset = .next t ∧ t.latch.fault = true :=
  ⟨ready_completes, blit_faults⟩

/-- V-FAULT-3, 4, 5, 6, 7, 8, 9 meet the condition of each check and pass those before it. -/
theorem witness_BlitChecksInOrder :
    (NextAccess (live (.write 0 4 0x40058005)) (.write 0 4 0x40058005) [] ∧
      bits 0x40058005 31 28 = 4 ∧ bits 0x40058005 15 10 ≠ 0) ∧
    blitCheck .lr 5 0 State.reset = some .noCtx ∧
    blitCheck .lr 3 0 composite = some .width ∧
    blitCheck .lr 5 8 (surface 0x1000 4 8 composite) = some .line ∧
    blitCheck .lr 5 0 (surface 0x1000 0 8 composite) = some .pitch ∧
    blitCheck .lr 5 0 (surface 0x1010 4 8 composite) = some .align ∧
    blitCheck .lr 5 0 (surface 0xFFE0 4 8 ready) = some .dstRange ∧
    blitCheck .lr 5 0 ((surface 0x1000 4 8 composite).setSrc (row5.take 4)) = some .srcUninit :=
  ⟨⟨live_next _, by decide, by decide⟩, by decide, by decide, by decide, by decide, by decide,
    by decide, by decide⟩

theorem witness_ClippedTellsDroppedPixels :
    ready.latch.fault = false ∧
    (∃ t, exec (.blit .lr 5 5) ready = .next t ∧ t.latch.fault = false) ∧
    State.reset.latch.fault = false ∧
    ∃ t, exec (.blit .lr 5 0) State.reset = .next t ∧ t.latch.fault = true :=
  ⟨rfl, ready_completes, rfl, blit_faults⟩

theorem witness_BlitKeepsOtherRows :
    (∃ t, exec (.blit .lr 5 5) ready = .next t ∧ t.latch.fault = false) ∧ 4 ≠ 5 ∧
    15 < 4 * ready.regs.dstPitch.toNat ∧ 1 < ready.cfg.texelBytes :=
  ⟨ready_completes, by decide, by decide, by decide⟩

theorem witness_TexelAddrInjective :
    0 < ready.cfg.texelBytes ∧ 3 < 4 ∧ 15 < 4 * ready.regs.dstPitch.toNat ∧
    texelAddr ready.cfg ready.regs 15 3 = texelAddr ready.cfg ready.regs 15 3 := by decide

theorem witness_TexelStoresAligned :
    ready.cfg.Valid ∧ ready.regs.dstBase.toNat % (16 * ready.cfg.texelBytes) = 0 :=
  ⟨test_tc_valid, by decide⟩

theorem witness_DstWriteIsBigEndian :
    (2 = 2 ∨ 2 = 4) ∧ 1 < 2 ∧ 3 < 4 ∧ ∀ b < 4, 0x11D8 ≠ 0x11D4 + b := by decide

theorem witness_StreamIsTheRow :
    Config.standIn.lr.Valid ∧ 4 < 5 ∧ (-2 : Int) < -((5 % Config.standIn.lr.inChunk : Nat) : Int) ∧
    ((5 / Config.standIn.lr.inChunk * Config.standIn.lr.inChunk : Nat) : Int) ≤ 4 ∧
    (-((5 % Config.standIn.lr.inChunk : Nat) : Int)) ≤ -1 ∧
    (3 : Int) < (5 / Config.standIn.lr.inChunk * Config.standIn.lr.inChunk : Nat) ∧
    Cells.get? row5 4 = some 0x55 :=
  ⟨lr_valid, by decide, by decide, by decide, by decide, by decide, by decide⟩

/-- V-BLIT-1's start, with SRC[5] and SS changed: the inputs of the BLIT agree. -/
theorem witness_BlitDependsOnItsInputs :
    (let s' := resolveEffect (ready.setSrc (row5 ++ [(5, 0x99)]))
     ready.cfg = s'.cfg ∧ ctxLut ready .lr = ctxLut s' .lr ∧
     ready.regs.dstBase = s'.regs.dstBase ∧ ready.regs.dstPitch = s'.regs.dstPitch ∧
     ready.regs.dstLines = s'.regs.dstLines ∧
     (∀ i < 5, Cells.get? ready.src i = Cells.get? s'.src i) ∧
     (∃ t, exec (.blit .lr 5 5) s' = .next t ∧ t.latch.fault = false)) ∧
    (∃ t, exec (.blit .lr 5 5) ready = .next t ∧ t.latch.fault = false) ∧
    13 < storedWidth (ready.cfg.kind .lr) ready.regs 5 ∧ 1 < ready.cfg.texelBytes := by
  refine ⟨⟨rfl, rfl, rfl, rfl, rfl, by decide, _, rfl, ?_⟩, ready_completes, by decide, by decide⟩
  have : blitCheck .lr 5 5 (resolveEffect (ready.setSrc (row5 ++ [(5, 0x99)]))) = none := by decide
  simp only [blitEffect, this]
  rfl

theorem witness_NewestPositionAdvances :
    Config.standIn.lr.Valid ∧ 0 ≤ 13 ∧ 13 < outputWidth Config.standIn.lr 5 ∧
    7 < (5 / Config.standIn.lr.inChunk + 1) * Config.standIn.lr.inChunk ∧
    Config.standIn.lr.lead[6]? = some 3 :=
  ⟨lr_valid, by decide, by decide, by decide, by decide⟩

/-- Samples 0 and 4 of V-BLIT-1: J(0) holds pixel 12, J(4) pixel 13. -/
theorem witness_SamplesKeepOrder :
    Config.standIn.lr.Valid ∧ 0 < 4 ∧ 4 < 5 ∧
    (12 < outputWidth Config.standIn.lr 5 ∧ newest Config.standIn.lr 12 = 6 ∧
      (0 : Int) - 1 ≤ 6 ∧ (6 : Int) ≤ 0 - 1 + Config.standIn.lr.taps - 1) ∧
    newest Config.standIn.lr 13 = 7 ∧ (4 : Int) - 1 ≤ 7 :=
  ⟨lr_valid, by decide, by decide, by decide, by decide, by decide⟩

/-- Configuration TC has property SOLID (95_test_vectors.md section 0). -/
theorem tc_solid : Solid Config.standIn tcModel := by
  intro k p kn v y ph _ _ ha hv _ _
  have hp : p = .composite := by simpa [tcModel] using ha
  subst hp
  have h8 : (Config.standIn.kind k).sampleBits = 8 := by cases k <;> rfl
  have ht : (Config.standIn.kind k).taps = 8 := by cases k <;> rfl
  rw [h8] at hv
  have he : effectivePreset (Config.standIn.kind k) .composite = .composite := by cases k <;> rfl
  have hm : tcModel.mix k y ph (List.replicate (Config.standIn.kind k).taps
      (lutGen tcModel k (effectivePreset (Config.standIn.kind k) .composite) kn v)) =
      tcModel.colorOf k v := by
    rw [ht, he]
    simp only [tcModel, lutGen, tcBase, List.replicate, List.head?, List.getLast?, List.getLast,
      Option.map, Option.getD, Nat.add_zero, reduceCtorEq, if_false]
    rw [Nat.mod_eq_of_lt (show v < 256 from hv)]
    congr 1
    omega
  rw [hm]
  unfold WithinTol
  intro ab hab
  have : ab.1 = ab.2 := by
    generalize channels Config.standIn.texelBytes (tcModel.colorOf k v) = l at hab
    induction l with
    | nil => simp at hab
    | cons a t ih =>
      simp only [List.zip_cons_cons, List.mem_cons] at hab
      rcases hab with rfl | h
      · rfl
      · exact ih h
  omega

/-- V-BLIT-5: twelve samples 0x7E; pixels 13 and 20 are interior, pixels 12 and 21 are not. -/
theorem witness_SolidRowKeepsItsColour :
    Config.standIn.Valid ∧ Solid Config.standIn tcModel ∧ Preset.composite ≠ .off ∧
    KnobsInRange Config.standIn (Knobs.all 0) ∧
    tcModel.artifactFree .lr .composite (Knobs.all 0) = true ∧
    (∀ i < 12, srcRead 8 ((List.range 12).map fun i => (i, 0x7E)) i = 0x7E) ∧
    Interior Config.standIn.lr 12 13 ∧ Interior Config.standIn.lr 12 20 ∧
    ¬Interior Config.standIn.lr 12 12 ∧ ¬Interior Config.standIn.lr 12 21 ∧
    27 < outputWidth Config.standIn.lr 12 :=
  ⟨test_tc_valid, tc_solid, by decide, by decide, by decide, by decide, by decide, by decide,
    by decide, by decide, by decide⟩

theorem witness_ResolveLatchesResult : (resolver 65535 65535 0x7FF 0x8000 0x7FFF).latch.fault = false :=
  rfl

theorem witness_ResolveNeverOverflows :
    (resolver 65535 65535 0x0A1 0x8000 0x7FFF).cfg.Valid ∧
    (resolver 65535 65535 0x0A1 0x8000 0x7FFF).latch.fault = false ∧
    ∃ t, exec .resolve (resolver 65535 65535 0x0A1 0x8000 0x7FFF) = .next t :=
  ⟨test_tc_valid, rfl, _, rfl⟩

theorem witness_IntegerDoublingFlag :
    (resolver 320 224 0x010 0 0).latch.fault = false ∧
    ∃ t, exec .resolve (resolver 320 224 0x010 0 0) = .next t :=
  ⟨rfl, _, rfl⟩

/-- V-RES-3 and V-RES-8. -/
theorem witness_ResolverScenarios :
    (let s := resolver 256 224 0x001 0 0
     s.latch.fault = false ∧ s.regs.rsCtrl.getLsbD 0 = true ∧
     (∀ n ∈ [1, 3, 4, 5, 6, 7], s.regs.rsCtrl.getLsbD n = false) ∧ s.regs.rsWidth = 256) ∧
    (let s := resolver 256 192 0x400 0 0
     s.latch.fault = false ∧ s.regs.rsCtrl.getLsbD 0 = false ∧ s.regs.rsCtrl.getLsbD 10 = true ∧
     (∀ n ∈ [2, 3, 7], s.regs.rsCtrl.getLsbD n = false) ∧ s.regs.rsUserX = 0 ∧
     s.regs.rsUserY = 0) := by decide

theorem witness_ResolveReadsItsRegisters :
    (let s := resolver 256 192 0x400 5 0xFFFD
     let s' := surface 0x1000 4 8 (composite.setRegs s.regs)
     s.cfg = s'.cfg ∧ s.latch.fault = false ∧ s'.latch.fault = false ∧
     s.regs.rsWidth = s'.regs.rsWidth ∧ s.regs.rsHeight = s'.regs.rsHeight ∧
     s.regs.rsCtrl = s'.regs.rsCtrl ∧ s.regs.rsUserX = s'.regs.rsUserX ∧
     s.regs.rsUserY = s'.regs.rsUserY ∧ s.regs.rsXShift = s'.regs.rsXShift ∧
     s.regs.rsYShift = s'.regs.rsYShift ∧
     (∃ t, exec .resolve s = .next t) ∧ ∃ t', exec .resolve s' = .next t') :=
  ⟨rfl, rfl, rfl, rfl, rfl, rfl, rfl, rfl, rfl, rfl, ⟨_, rfl⟩, _, rfl⟩

/-- Original mode with bits 2 and 10 flipped; manual mode with bits 1, 2, 5 and 6 flipped. -/
theorem witness_ResolverIgnoresInactiveInputs :
    (let s := resolver 256 224 0x001 0 0
     s.latch.fault = false ∧ (∃ t, exec .resolve s = .next t) ∧ s.regs.rsCtrl.getLsbD 0 = true ∧
     ∀ n, n ≠ 2 → n ≠ 10 → (0x405 : BitVec 11).getLsbD n = s.regs.rsCtrl.getLsbD n) ∧
    (let s := resolver 256 224 0x000 0 0
     s.latch.fault = false ∧ (∃ t, exec .resolve s = .next t) ∧ s.regs.rsCtrl.getLsbD 0 = false ∧
     ∀ n, n ≠ 1 → n ≠ 5 → n ≠ 6 → (n ≠ 2 ∨ s.regs.rsCtrl.getLsbD 10 = true) →
       (0x066 : BitVec 11).getLsbD n = s.regs.rsCtrl.getLsbD n) := by
  have h1 : ∀ n < 11, n ≠ 2 → n ≠ 10 →
      (0x405 : BitVec 11).getLsbD n = (0x001 : BitVec 11).getLsbD n := by decide
  have h2 : ∀ n < 11, n ≠ 1 → n ≠ 5 → n ≠ 6 → n ≠ 2 →
      (0x066 : BitVec 11).getLsbD n = (0 : BitVec 11).getLsbD n := by decide
  refine ⟨⟨rfl, ⟨_, rfl⟩, rfl, fun n => ?_⟩, rfl, ⟨_, rfl⟩, rfl, fun n => ?_⟩
  · rcases Nat.lt_or_ge n 11 with h | h
    · exact h1 n h
    · intros
      exact (BitVec.getLsbD_of_ge _ _ h).trans (BitVec.getLsbD_of_ge _ _ h).symm
  · rcases Nat.lt_or_ge n 11 with h | h
    · exact fun a b c d => h2 n h a b c (d.resolve_right (by decide))
    · intros
      exact (BitVec.getLsbD_of_ge _ _ h).trans (BitVec.getLsbD_of_ge _ _ h).symm

theorem witness_ContextsAreIndependent :
    (∃ t, exec (.blit .lr 5 5) ready = .next t) ∧ namedKind (.blit .lr 5 5) ≠ some .hr ∧
    (∃ t, exec .resolve ready = .next t) ∧ namedKind .resolve ≠ some .lr ∧
    (∃ t, exec (.ffree .lr) ready = .next t) ∧ ready.latch.fault = false :=
  ⟨⟨_, rfl⟩, by decide, ⟨_, rfl⟩, by decide, ⟨_, rfl⟩, rfl⟩

/-- A BLIT, a NOP, a FINIT and the context of the other kind, a BLIT that faults. -/
theorem witness_OnlyTheNamedCommandWrites :
    (∃ t, exec (.blit .lr 5 5) ready = .next t) ∧ (∃ t, exec .nop ready = .next t) ∧
    (∃ t, exec (.finit .hr .rgb) ready = .next t) ∧ Instr.finit .hr .rgb ≠ .ffree .lr ∧
    (∀ p, Instr.finit .hr .rgb ≠ .finit .lr p) ∧ (ready.ctx .lr).isSome = true ∧
    ∃ t, exec (.blit .lr 5 0) State.reset = .next t ∧ t.latch.fault = true :=
  ⟨⟨_, rfl⟩, ⟨_, rfl⟩, ⟨_, rfl⟩, nofun, nofun, by decide, blit_faults⟩

/-- Clause by clause: another command, a BLIT that faults, one that stores (a byte of its last
texel, and the byte after it). -/
theorem witness_CommandsNeverReadDst :
    (∃ t, exec .resolve ready = .next t) ∧ (∀ k w line, Instr.resolve ≠ .blit k w line) ∧
    (∃ t, exec (.blit .lr 5 0) State.reset = .next t ∧ t.latch.fault = true) ∧
    (∃ t, exec (.blit .lr 5 5) ready = .next t ∧ t.latch.fault = false) ∧
    13 < storedWidth (ready.cfg.kind .lr) ready.regs 5 ∧ 1 < ready.cfg.texelBytes ∧
    ∀ j < storedWidth (ready.cfg.kind .lr) ready.regs 5, ∀ b < ready.cfg.texelBytes,
      0x10EC ≠ texelAddr ready.cfg ready.regs j 5 + b :=
  ⟨⟨_, rfl⟩, nofun, blit_faults, ready_completes, by decide, by decide, by decide⟩

/-- A state no reset gives: bytes stored, a valid context, a resolved scale, a width, an access
pending. -/
def busy : State :=
  { (resolveEffect (ready.setRow [(0x1088, 0x00), (0x1089, 0x22)] true)) with
    outwRes := 0x000C000E
    host := { pending := [.write 0 4 0x40050005], reads := [0] } }

theorem witness_StepKeepsInvariant : busy.Inv ∧ ∃ t, step busy = .next t := by
  refine ⟨⟨test_tc_valid, by decide, by decide, by decide, by decide, ?_, ?_, ?_, ?_⟩,
    step_answers test_tc_valid⟩
  · exact .inl ⟨rfl, rfl, rfl⟩
  · intro k x hx
    cases k
    · cases hx
      exact ⟨by decide, by decide, buildLut_length _ _ _ _ _⟩
    · cases hx
  · intro h
    exact absurd h (by decide)
  · unfold WidthsOk
    decide

theorem witness_EveryRunKeepsInvariant : busy.Inv := witness_StepKeepsInvariant.1

/-- Each range at its two sides. -/
theorem witness_ScriptsAssemble :
    assemble [.src 2047 0xFFFFFFFF] = some [.write 0x2FFC 4 0xFFFFFFFF] ∧
    assemble [.src 2048 0] = none ∧ assemble [.src 0 4294967296] = none ∧
    assemble [.command (.blit .hr 2047 1023)] = some [.write 0 4 0x4FFF03FF] ∧
    assemble [.command (.blit .hr 2047 1024)] = none ∧
    assemble [.command (.outw .lr 2048)] = none ∧
    (0x006C, .scYShift, .ro) ∈ registerTable := by decide

/-- R132's KNOBS at both ends of its operands (95_test_vectors.md P5), and one value beyond. -/
theorem witness_PseudoStatementsExpand :
    assemble [.knobs (-32768) 32767 0 0 0] =
      some [.write 0x10 4 0x8000, .write 0x14 4 0x7FFF, .write 0x18 4 0, .write 0x1C 4 0,
        .write 0x20 4 0] ∧
    assemble [.knobs (-32769) 0 0 0 0] = none ∧
    assemble [.row [0x11, 0x22]] = some [.write 0x1000 4 0x11, .write 0x1004 4 0x22] ∧
    assemble [.surface 0x1000 3 2] =
      some [.write 0x24 4 0x1000, .write 0x28 4 3, .write 0x2C 4 2] ∧
    assemble [.geom 256 192 4294967296] = none := by decide

end Sys2Proof.Tests
end

/-! SUPPORT. The state of the block: what a host access does, what each command writes and reads,
the register map, and the statements of 10_state.md that follow from them. -/

namespace Sys2Proof.Machine

open Sys2Proof.Statement

/-! ## Host accesses, case by case -/

theorem hostRead_of_regAt {off : Word} {size : Nat} {r : Reg} (h : regAt off size = some r)
    (s : State) : hostRead off size s = s.logRead (readReg s r) := by
  simp [hostRead, h]

theorem hostWrite_of_frozen {s : State} (hf : s.latch.fault = true) (off : Word) (size : Nat)
    (v : Word) : hostWrite off size v s = .next s := by
  simp [hostWrite, hf]

theorem hostWrite_of_cmd {s : State} (hf : s.latch.fault = false) {off : Word} {size : Nat}
    (h : regAt off size = some .cmd) (v : Word) : hostWrite off size v s = writeCmd v s := by
  simp [hostWrite, hf, h]

/-- A legal write in a live block stores in its register, unless that is CMD
(40_host_access_and_nop.md R141). -/
theorem hostWrite_of_reg {s : State} (hf : s.latch.fault = false) {off : Word} {size : Nat} {r : Reg}
    (h : regAt off size = some r) (hr : r ≠ .cmd) (v : Word) :
    hostWrite off size v s = .next (storeReg r v s) := by
  simp [hostWrite, hf, h]

theorem writeCmd_of_decode {c : Word} {i : Instr} (h : decode c = .ok i) (s : State) :
    writeCmd c s = exec i s := by
  simp [writeCmd, h]

/-- A host read leaves a set FAULT set. -/
theorem hostRead_keeps_fault {s : State} (hf : s.latch.fault = true) (off : Word) (size : Nat) :
    (hostRead off size s).latch.fault = true := by
  obtain ⟨r, _, h⟩ | ⟨_, h⟩ := hostRead_cases off size s <;> simp [h, hf]

/-- Only reset leaves the frozen state (10_state.md R53). -/
theorem hostEvent_keeps_fault {s t : State} (hf : s.latch.fault = true) {e : HostEvent}
    (he : e ≠ .rst) (h : hostEvent e s = .next t) : t.latch.fault = true := by
  cases e with
  | read off size =>
    cases h
    exact hostRead_keeps_fault hf off size
  | write off size v =>
    cases (hostWrite_of_frozen hf off size v).symm.trans h
    exact hf
  | rst => exact absurd rfl he

/-- A step of a live block makes its next access. -/
theorem step_of_nextAccess {s : State} {e : HostEvent} {rest : List HostEvent}
    (h : NextAccess s e rest) : step s = hostEvent e (s.setPending rest) :=
  step_of_pending h.1 h.2.2

theorem live_of_nextAccess {s : State} {e : HostEvent} {rest : List HostEvent}
    (h : NextAccess s e rest) : (s.setPending rest).latch.fault = false := h.2.1

/-- A step that writes a register other than CMD in a live block stores in it. -/
theorem step_of_write_reg {s : State} {r : Reg} {v : Word} {rest : List HostEvent}
    (hr : regNamed r = true) (hc : r ≠ .cmd) (h : NextAccess s (.write r.offset 4 v) rest) :
    step s = .next (storeReg r v (s.setPending rest)) :=
  (step_of_nextAccess h).trans (hostWrite_of_reg (live_of_nextAccess h) (regAt_offset hr) hc v)

/-- A step that reads a register returns its value and changes nothing else, in a frozen block as
well (40_host_access_and_nop.md R140). -/
theorem step_of_read_reg {s : State} {r : Reg} {rest : List HostEvent} (hc : s.cfg.Valid)
    (hr : regNamed r = true) (hp : s.host.pending = .read r.offset 4 :: rest) :
    step s = .next ((s.setPending rest).logRead (readReg s r)) := by
  rw [step_of_pending hc hp, hostEvent, hostRead_of_regAt (regAt_offset hr), readReg_setPending]

/-- A step that writes a command word to CMD in a live block executes the command
(10_state.md R35). -/
theorem step_of_write_cmd {s : State} {c : Word} {i : Instr} {rest : List HostEvent}
    (h : NextAccess s (.write Reg.cmd.offset 4 c) rest) (hd : decode c = .ok i) :
    step s = exec i (s.setPending rest) := by
  rw [step_of_nextAccess h, hostEvent, hostWrite_of_cmd (live_of_nextAccess h) (regAt_offset rfl),
    writeCmd_of_decode hd]

/-! ## What a command writes -/

/-- What a command may do to the state: nothing, the one update of its piece of state, or a fault
(10_state.md R51). -/
inductive CommandUpdate (i : Instr) (s : State) : State → Prop
  | unchanged : CommandUpdate i s s
  | context (k : Kind) (c : Option FilterContext) (hi : i = .ffree k ∨ ∃ p, i = .finit k p) :
      CommandUpdate i s (s.setCtx k c)
  | scaler (v : ScalerState) (hi : i = .resolve) : CommandUpdate i s (s.setSs v)
  | widths (v : Word) (hi : ∃ k w, i = .outw k w) : CommandUpdate i s (s.setOutwRes v)
  | row (m : Memory) (clipped : Bool) (hi : ∃ k w line, i = .blit k w line) :
      CommandUpdate i s (s.setRow m clipped)
  | fault (f : FaultCause) (info : Word)
      (hi : (∃ k w, i = .outw k w) ∨ ∃ k w line, i = .blit k w line) :
      CommandUpdate i s (raise f info s)

theorem effect_update (i : Instr) (s : State) : CommandUpdate i s (effect i s) := by
  cases i with
  | nop => exact .unchanged
  | finit k p =>
    obtain ⟨c, hc⟩ := finitEffect_eq_setCtx Config.filterModel k p s
    rw [effect, hc]
    exact .context k c (.inr ⟨p, rfl⟩)
  | ffree k => exact .context k none (.inl rfl)
  | resolve => exact .scaler _ rfl
  | outw k w =>
    obtain ⟨_, h⟩ | ⟨_, h⟩ := outwEffect_cases k w s
    · rw [effect, h]
      exact .widths _ ⟨k, w, rfl⟩
    · rw [effect, h]
      exact .fault _ _ (.inl ⟨k, w, rfl⟩)
  | blit k w line =>
    obtain ⟨_, _, h⟩ | ⟨_, h⟩ := blitEffect_cases Config.filterModel k w line s
    · rw [effect, h]
      exact .fault _ _ (.inr ⟨k, w, line, rfl⟩)
    · rw [effect, h]
      exact .row _ _ ⟨k, w, line, rfl⟩

/-- Every answer of a command is one of its updates; a frozen block is left unchanged. -/
theorem exec_update {i : Instr} {s t : State} (h : exec i s = .next t) : CommandUpdate i s t := by
  obtain ⟨_, rfl⟩ | ⟨_, rfl⟩ := exec_eq_next.mp h
  · exact .unchanged
  · exact effect_update i s

/-- Settles O51, by the updates a command may make. -/
theorem onlyTheNamedCommandWrites : Obligations.OnlyTheNamedCommandWrites := by
  intro i s t h
  cases exec_update h with
  | unchanged => simp
  | context k c hi =>
    have hctx : ∀ k', i ≠ .ffree k' → (∀ p, i ≠ .finit k' p) → k' ≠ k := by
      rintro k' hfree hinit rfl
      exact hi.elim hfree fun ⟨p, hp⟩ => hinit p hp
    simp +contextual [State.setCtx_ctx_ne, hctx]
  | scaler v hi => simp [hi]
  | widths v hi => simp [hi]
  | row m clipped hi => simp [hi]
  | fault f info hi => simp [hi]

theorem exec_cfg {i : Instr} {s t : State} (h : exec i s = .next t) : t.cfg = s.cfg := by
  obtain ⟨_, _, hcfg, _⟩ := onlyTheNamedCommandWrites _ _ _ h
  exact hcfg

theorem exec_host {i : Instr} {s t : State} (h : exec i s = .next t) : t.host = s.host := by
  obtain ⟨_, _, _, hhost, _⟩ := onlyTheNamedCommandWrites _ _ _ h
  exact hhost

/-! ## What a host access does to the host and the configuration -/

/-- A host read returns one value; the queue stays. -/
theorem hostRead_host (off : Word) (size : Nat) (s : State) :
    ∃ v, (hostRead off size s).host = { s.host with reads := s.host.reads ++ [v] } := by
  obtain ⟨r, _, h⟩ | ⟨_, h⟩ := hostRead_cases off size s
  · exact ⟨readReg s r, by rw [h, State.logRead_host]⟩
  · exact ⟨0, by rw [h, State.logRead_host, raise_host]⟩

@[simp] theorem hostRead_cfg (off : Word) (size : Nat) (s : State) :
    (hostRead off size s).cfg = s.cfg := by
  obtain ⟨r, _, h⟩ | ⟨_, h⟩ := hostRead_cases off size s <;> simp [h]

/-- A host write returns nothing and changes no configuration. -/
theorem hostWrite_keeps_cfg_host {off : Word} {size : Nat} {v : Word} {s t : State}
    (h : hostWrite off size v s = .next t) : t.cfg = s.cfg ∧ t.host = s.host := by
  obtain ⟨_, rfl⟩ | ⟨_, ⟨_, rfl⟩ | ⟨_, i, _, hi⟩ | ⟨_, _, rfl⟩ | ⟨r, _, _, rfl⟩⟩ := hostWrite_cases h
  · exact ⟨rfl, rfl⟩
  · simp
  · exact ⟨exec_cfg hi, exec_host hi⟩
  · simp
  · simp

/-- An event keeps the configuration and the queue, and a read alone returns a value. -/
theorem hostEvent_keeps_cfg_pending {e : HostEvent} {s t : State} (h : hostEvent e s = .next t) :
    t.cfg = s.cfg ∧ t.host.pending = s.host.pending ∧
      ((∃ off size, e = .read off size) → ∃ v, t.host.reads = s.host.reads ++ [v]) ∧
      ((¬∃ off size, e = .read off size) → t.host.reads = s.host.reads) := by
  cases e with
  | read off size =>
    cases h
    obtain ⟨v, hv⟩ := hostRead_host off size s
    simp [hv]
  | write off size v =>
    obtain ⟨hcfg, hhost⟩ := hostWrite_keeps_cfg_host h
    simp [hcfg, hhost]
  | rst =>
    cases h
    simp

/-! ## The contexts a command reads -/

theorem State.setCtx_comm {k k' : Kind} (h : k ≠ k') (c d : Option FilterContext) (s : State) :
    (s.setCtx k c).setCtx k' d = (s.setCtx k' d).setCtx k c := by
  cases k <;> cases k' <;> first | rfl | exact absurd rfl h

theorem State.setSs_setCtx (s : State) (k : Kind) (c : Option FilterContext) (v : ScalerState) :
    (s.setCtx k c).setSs v = (s.setSs v).setCtx k c := by cases k <;> rfl

theorem State.setOutwRes_setCtx (s : State) (k : Kind) (c : Option FilterContext) (v : Word) :
    (s.setCtx k c).setOutwRes v = (s.setOutwRes v).setCtx k c := by cases k <;> rfl

theorem State.setRow_setCtx (s : State) (k : Kind) (c : Option FilterContext) (m : Memory)
    (b : Bool) : (s.setCtx k c).setRow m b = (s.setRow m b).setCtx k c := by cases k <;> rfl

theorem State.setLatch_setCtx (s : State) (k : Kind) (c : Option FilterContext) (l : FaultLatch) :
    (s.setCtx k c).setLatch l = (s.setLatch l).setCtx k c := by cases k <;> rfl

theorem raise_setCtx (f : FaultCause) (info : Word) (s : State) (k : Kind)
    (c : Option FilterContext) : raise f info (s.setCtx k c) = (raise f info s).setCtx k c := by
  cases hf : s.latch.fault
  · rw [raise_of_live hf, raise_of_live (by simpa using hf), State.setLatch_setCtx]
  · rw [raise_of_frozen hf, raise_of_frozen (by simpa using hf)]

/-- FINIT of one kind and the other kind's context have nothing to do with each other. -/
theorem finitEffect_setCtx_ne (f : FilterModel) {k k' : Kind} (h : k' ≠ k) (p : Preset) (s : State)
    (c : Option FilterContext) :
    finitEffect f k' p (s.setCtx k c) = (finitEffect f k' p s).setCtx k c := by
  by_cases hp : p = .off
  · rw [hp, finitEffect_off, finitEffect_off, State.setCtx_comm h.symm]
  · rw [finitEffect_build f k' hp, finitEffect_build f k' hp, builtContext_setCtx,
      State.setCtx_comm h.symm]

/-- FINIT replaces its context whole, whatever it held (10_state.md R41). -/
theorem finitEffect_setCtx_self (f : FilterModel) (k : Kind) (p : Preset) (s : State)
    (c : Option FilterContext) : finitEffect f k p (s.setCtx k c) = finitEffect f k p s := by
  by_cases hp : p = .off
  · rw [hp, finitEffect_off, finitEffect_off, State.setCtx_setCtx]
  · rw [finitEffect_build f k hp, finitEffect_build f k hp, builtContext_setCtx,
      State.setCtx_setCtx]

theorem outwEffect_setCtx (k' : Kind) (w : Nat) (s : State) (k : Kind) (c : Option FilterContext) :
    outwEffect k' w (s.setCtx k c) = (outwEffect k' w s).setCtx k c := by
  unfold outwEffect
  rw [State.setCtx_cfg, State.setOutwRes_setCtx, raise_setCtx]
  split <;> rfl

theorem blitCheck_setCtx_ne {k k' : Kind} (h : k' ≠ k) (w line : Nat) (s : State)
    (c : Option FilterContext) : blitCheck k' w line (s.setCtx k c) = blitCheck k' w line s := by
  simp [blitCheck, State.setCtx_ctx_ne _ _ _ _ h]

theorem blitMemory_setCtx_ne (f : FilterModel) {k k' : Kind} (h : k' ≠ k) (w line : Nat) (s : State)
    (c : Option FilterContext) :
    blitMemory f k' w line (s.setCtx k c) = blitMemory f k' w line s := by
  simp [blitMemory, blitStores, ctxLut, State.setCtx_ctx_ne _ _ _ _ h]

/-- BLIT of one kind neither reads nor writes the other kind's context. -/
theorem blitEffect_setCtx_ne (f : FilterModel) {k k' : Kind} (h : k' ≠ k) (w line : Nat) (s : State)
    (c : Option FilterContext) :
    blitEffect f k' w line (s.setCtx k c) = (blitEffect f k' w line s).setCtx k c := by
  unfold blitEffect
  rw [blitCheck_setCtx_ne h, blitMemory_setCtx_ne f h]
  cases blitCheck k' w line s with
  | none => simp [State.setRow_setCtx]
  | some cause => exact raise_setCtx _ _ _ _ _

/-- A command that does not name kind k leaves CTX[k] alone and does not read it
(10_state.md R41). -/
theorem effect_setCtx_of_not_named {i : Instr} {k : Kind} (h : namedKind i ≠ some k) (s : State)
    (c : Option FilterContext) : effect i (s.setCtx k c) = (effect i s).setCtx k c := by
  have hne : ∀ k', namedKind i = some k' → k' ≠ k := by
    rintro k' h' rfl
    exact h h'
  cases i with
  | nop => rfl
  | finit k' p => exact finitEffect_setCtx_ne _ (hne k' rfl) p s c
  | ffree k' => exact State.setCtx_comm (hne k' rfl).symm c none s
  | outw k' w => exact outwEffect_setCtx k' w s k c
  | blit k' w line => exact blitEffect_setCtx_ne _ (hne k' rfl) w line s c
  | resolve =>
    simp only [effect, resolveEffect, State.setCtx_cfg, State.setCtx_regs]
    exact State.setSs_setCtx s k c _

theorem exec_setCtx_of_not_named {i : Instr} {k : Kind} (hk : namedKind i ≠ some k) {s t : State}
    (h : exec i s = .next t) (c : Option FilterContext) :
    exec i (s.setCtx k c) = .next (t.setCtx k c) := by
  rw [exec_eq_next, State.setCtx_latch]
  obtain ⟨hf, rfl⟩ | ⟨hf, rfl⟩ := exec_eq_next.mp h
  · exact .inl ⟨hf, rfl⟩
  · exact .inr ⟨hf, (effect_setCtx_of_not_named hk s c).symm⟩

/-- FINIT and FFREE of kind k answer the same whatever CTX[k] held (10_state.md R41). -/
theorem effect_setCtx_of_replaces {i : Instr} {k : Kind} (h : i = .ffree k ∨ ∃ p, i = .finit k p)
    (s : State) (c : Option FilterContext) : effect i (s.setCtx k c) = effect i s := by
  obtain rfl | ⟨p, rfl⟩ := h
  · exact State.setCtx_setCtx s k c none
  · exact finitEffect_setCtx_self _ k p s c

/-- A command that does not name kind k is no FINIT and no FFREE of it. -/
theorem not_replaces_of_not_named {i : Instr} {k : Kind} (h : namedKind i ≠ some k) :
    i ≠ .ffree k ∧ ∀ p, i ≠ .finit k p :=
  ⟨fun hi => h (hi ▸ rfl), fun _ hi => h (hi ▸ rfl)⟩

/-! ## The register map -/

/-- The offsets of the map of 10_state.md R34 outside the LINEBUF window: the multiples of 4 up to
0x6C but for the gaps (40_host_access_and_nop.md R142 (a)). -/
theorem registerMap_isSome (n : Nat) :
    (Cells.get? registerMap n).isSome = true ↔
      n % 4 = 0 ∧ (n ≤ 0x30 ∨ (0x40 ≤ n ∧ n ≤ 0x58) ∨ (0x60 ≤ n ∧ n ≤ 0x6C)) := by
  have hbelow : ∀ n < 0x70, (Cells.get? registerMap n).isSome = true ↔
      n % 4 = 0 ∧ (n ≤ 0x30 ∨ (0x40 ≤ n ∧ n ≤ 0x58) ∨ (0x60 ≤ n ∧ n ≤ 0x6C)) := by decide
  have hmem : ∀ e ∈ registerMap, e.1 < 0x70 := by decide
  by_cases hn : n < 0x70
  · exact hbelow n hn
  · refine ⟨fun h => ?_, fun h => by omega⟩
    obtain ⟨r, hr⟩ := Option.isSome_iff_exists.mp h
    exact absurd (hmem _ (Cells.mem_of_get? hr)) hn

/-- When an access is legal (40_host_access_and_nop.md R140, R142 (a)). -/
theorem regAt_isSome (off : Word) (size : Nat) :
    (regAt off size).isSome = true ↔
      size = 4 ∧ off.toNat % 4 = 0 ∧
      (off.toNat ≤ 0x30 ∨ (0x40 ≤ off.toNat ∧ off.toNat ≤ 0x58) ∨
        (0x60 ≤ off.toNat ∧ off.toNat ≤ 0x6C) ∨ (0x1000 ≤ off.toNat ∧ off.toNat ≤ 0x2FFC)) := by
  unfold regAt regAtOffset
  split_ifs with hsize hwindow halign
  · simp only [Option.isSome_some, true_iff]
    omega
  · simp only [Option.isSome_none, Bool.false_eq_true, false_iff]
    omega
  · rw [registerMap_isSome]
    omega
  · simp [hsize]

theorem registerTable_named :
    ∀ e ∈ registerTable,
      e.2.1.offset = e.1 ∧ e.2.1.access = e.2.2 ∧ regNamed e.2.1 = true := by decide

/-- The table and the LINEBUF window hold every register. -/
theorem named_cases (r : Reg) (h : regNamed r = true) :
    (∃ e ∈ registerTable, e.2.1 = r) ∨ ∃ i ≤ 2047, r = .lineBuf i := by
  cases r
  case lineBuf i => exact .inr ⟨i, by simpa [regNamed] using h, rfl⟩
  all_goals exact .inl (by decide)

/-! ## What a register reads after a write -/

/-- The bits a write to a read-write register stores, as a mask (10_state.md R38, R39, R43, R44,
R45). -/
def Reg.mask : Reg → Word
  | .dstBase => 0xFFFFFFFF
  | .dstPitch => 0xFFF
  | .dstLines => 0x7FF
  | .rsCtrl => 0x7FF
  | _ => 0xFFFF

/-- The low `n` bits of a word in place, 0 elsewhere, are its AND with their mask. -/
theorem setWidth_setWidth_eq_and (v : Word) {n : Nat} (hn : n ≤ 32) :
    (v.setWidth n).setWidth 32 = v &&& BitVec.ofNat 32 (2 ^ n - 1) := by
  have hpow : 2 ^ n ≤ 2 ^ 32 := Nat.pow_le_pow_right (by omega) hn
  have hpos : 0 < 2 ^ n := Nat.two_pow_pos n
  apply BitVec.eq_of_toNat_eq
  rw [BitVec.toNat_and, BitVec.toNat_ofNat, Nat.mod_eq_of_lt (by omega),
    Nat.and_two_pow_sub_one_eq_mod, BitVec.toNat_setWidth, BitVec.toNat_setWidth]
  exact Nat.mod_eq_of_lt ((Nat.mod_lt _ hpos).trans_le hpow)

/-- A write to a read-write register changes the read-write registers alone. -/
theorem storeReg_of_rw {r : Reg} (h : r.access = .rw) (v : Word) (s : State) :
    storeReg r v s = s.setRegs (storeReg r v s).regs := by
  cases r <;> first | rfl | cases h

/-- A read-write register reads back the bits its rule stores (10_state.md R48). -/
theorem readReg_storeReg_self {r : Reg} (h : r.access = .rw) (v : Word) (s : State) :
    readReg (storeReg r v s) r = v &&& r.mask := by
  cases r
  case dstBase => exact (BitVec.and_allOnes).symm
  case dstPitch => exact setWidth_setWidth_eq_and v (n := 12) (by omega)
  case dstLines | rsCtrl => exact setWidth_setWidth_eq_and v (n := 11) (by omega)
  all_goals first | exact setWidth_setWidth_eq_and v (n := 16) (by omega) | cases h

/-- A write to a register leaves what every other register reads unchanged. -/
theorem readReg_storeReg_ne {r r' : Reg} (h : r' ≠ r) (v : Word) (s : State) :
    readReg (storeReg r v s) r' = readReg s r' := by
  cases r <;> cases r' <;> first | rfl | exact absurd rfl h

/-! ## The read-only views -/

/-- STATUS, bit by bit (10_state.md R36). -/
theorem bits_statusWord (s : State) :
    bits (statusWord s) 0 0 = s.latch.fault.toNat ∧ bits (statusWord s) 1 1 = s.ctxLr.isSome.toNat ∧
    bits (statusWord s) 2 2 = s.ctxHr.isSome.toNat ∧ bits (statusWord s) 3 3 = s.ss.valid.toNat ∧
    bits (statusWord s) 4 4 = s.ss.intdbl.toNat ∧ bits (statusWord s) 5 5 = s.clipped.toNat ∧
    bits (statusWord s) 31 6 = 0 := by
  unfold statusWord
  generalize s.latch.fault = fault, s.ctxLr.isSome = lr, s.ctxHr.isSome = hr, s.ss.valid = scv,
    s.ss.intdbl = intdbl, s.clipped = clipped
  revert fault lr hr scv intdbl clipped
  decide

/-- A byte shown in a word: the byte in bits 7:0, 0 above. -/
theorem bits_setWidth_byte (b : Byte) :
    bits (b.setWidth 32) 7 0 = b.toNat ∧ bits (b.setWidth 32) 31 8 = 0 := by
  have hlt := b.isLt
  unfold bits
  rw [BitVec.toNat_setWidth]
  omega

/-! ## The statements -/

/-- Settles O9: a frozen block ignores writes, answers reads, and leaves FAULT by reset alone. -/
theorem frozenBlockIgnoresWrites : Obligations.FrozenBlockIgnoresWrites := by
  intro s rest hc hf
  refine ⟨fun off size v hp => ?_, fun r hr hp => step_of_read_reg hc hr hp,
    fun e t hp he ht => ?_, fun t hp ht => ?_⟩
  · exact (step_of_pending hc hp).trans (hostWrite_of_frozen (s := s.setPending rest) hf off size v)
  · rw [step_of_pending hc hp] at ht
    exact hostEvent_keeps_fault (s := s.setPending rest) hf he ht
  · rw [step_of_pending hc hp] at ht
    cases ht
    rfl

/-- Settles O13: the table's offsets by `registerTable_named`, legality by `regAt_isSome`. -/
theorem mappedOffsets : Obligations.MappedOffsets := by
  refine ⟨fun e he => ?_, fun i hi => ?_, named_cases, regAt_isSome⟩
  · obtain ⟨hoff, hacc, hnamed⟩ := registerTable_named e he
    exact ⟨hoff ▸ regAt_offset hnamed, hoff, hacc, hnamed⟩
  · have hnamed : regNamed (.lineBuf i) = true := by simpa [regNamed] using hi
    exact ⟨regAt_offset hnamed, rfl, rfl⟩

/-- Settles O15: a LINEBUF write is `srcWrite` at its entry. -/
theorem linebufWriteStoresSample : Obligations.LinebufWriteStoresSample := by
  intro s i v rest hi
  have hnamed : regNamed (.lineBuf i) = true := by simpa [regNamed] using hi
  refine ⟨fun h => ⟨_, step_of_write_reg hnamed nofun h, rfl, ?_, ?_, fun j hj => ?_⟩,
    fun hc hp => step_of_read_reg hc hnamed hp⟩
  · exact Cells.get?_set_self _ _ _
  · simp [storeReg, srcWritten_srcWrite]
  · exact Cells.get?_set_ne _ _ _ _ hj

/-- Settles O16: the listed registers are read-write and the listed masks are theirs. -/
theorem registerWriteReadsBack : Obligations.RegisterWriteReadsBack := by
  intro s r mask v rest hmem h
  have hlist : r.access = .rw ∧ r.mask = mask ∧ regNamed r = true ∧ r ≠ .cmd :=
    of_decide_eq_true ((List.all_eq_true (p := fun e : Reg × Word =>
      decide (e.1.access = .rw ∧ e.1.mask = e.2 ∧ regNamed e.1 = true ∧ e.1 ≠ .cmd))).mp
      (by decide) (r, mask) hmem)
  obtain ⟨hrw, rfl, hnamed, hcmd⟩ := hlist
  refine ⟨_, step_of_write_reg hnamed hcmd h, storeReg_of_rw hrw v _,
    readReg_storeReg_self hrw v _, fun r' hr' => ?_⟩
  rw [readReg_storeReg_ne hr', readReg_setPending]

/-- Settles O17: STATUS is its six flags bit by bit, FAULTINFO the byte FCODE; the others show their
word. -/
theorem statusAndFaultViews : Obligations.StatusAndFaultViews := by
  intro s
  obtain ⟨hfault, hlr, hhr, hscv, hintdbl, hclipped, hrest⟩ := bits_statusWord s
  obtain ⟨hcode, hzero⟩ := bits_setWidth_byte s.latch.fcode
  exact ⟨hfault, hlr, hhr, hscv, hintdbl, hclipped, hrest, hcode, hzero, rfl, rfl, rfl, rfl,
    rfl, rfl⟩

/-- Settles O18: a step is its access, and no access touches the rest of the queue. -/
theorem everyStepTakesOneAccess : Obligations.EveryStepTakesOneAccess := by
  intro s t h
  obtain ⟨_, ⟨hnil, rfl⟩ | ⟨e, rest, hp, he⟩⟩ := step_cases h
  · exact ⟨fun _ => rfl, fun e rest hp => by simp [hnil] at hp⟩
  · refine ⟨fun hnil => by simp [hnil] at hp, fun e' rest' hp' => ?_⟩
    obtain ⟨rfl, rfl⟩ : e = e' ∧ rest = rest' := by simpa [hp] using hp'
    obtain ⟨hcfg, hpending, hread, hother⟩ := hostEvent_keeps_cfg_pending he
    exact ⟨hpending, hcfg, hread, hother⟩

/-- Settles O50: the contexts a command does not name commute with it, and FINIT and FFREE
overwrite theirs. -/
theorem contextsAreIndependent : Obligations.ContextsAreIndependent := by
  intro i k s t h
  obtain ⟨_, _, _, _, hctx, _⟩ := onlyTheNamedCommandWrites _ _ _ h
  refine ⟨fun hk => ?_, fun hinit hfree k' => hctx k' (hfree k') (hinit k'), fun hf hi c => ?_⟩
  · obtain ⟨hfree, hinit⟩ := not_replaces_of_not_named hk
    exact ⟨hctx k hfree hinit, exec_setCtx_of_not_named hk h⟩
  · rw [exec_of_live (by simpa using hf), effect_setCtx_of_replaces hi, ← exec_of_live hf, h]

/-- Settles O7: both are a write to CMD of a word that decodes. -/
theorem stepRunsDecodedCommand : Obligations.StepRunsDecodedCommand := by
  refine ⟨fun s c i rest h hd => step_of_write_cmd h hd, fun s nbits w i hc hf hd => ?_⟩
  have hdecode : decode (tableWord nbits w) = .ok i := by
    unfold decodeTableWord at hd
    split at hd <;> simp_all
  have hnext : NextAccess (s.withFetchWord nbits w)
      (.write Reg.cmd.offset 4 (tableWord nbits w)) s.host.pending := ⟨hc, hf, rfl⟩
  exact step_of_write_cmd hnext hdecode

/-- Settles O19: the reset record, field by field. -/
theorem resetValues : Obligations.ResetValues :=
  ⟨rfl, rfl, rfl, rfl, rfl, rfl, rfl, rfl, rfl, rfl, rfl, fun k => by cases k <;> rfl, rfl,
    fun _ => rfl, rfl, rfl, rfl, fun _ => rfl⟩

/-- Settles O55: the stand-in configuration is legal, and every other field of reset is empty or
0. -/
theorem resetMeetsInvariant : Obligations.ResetMeetsInvariant where
  config := by decide
  dstCanonical := reset_dst_wf
  dstInside := nofun
  srcCanonical := .nil
  srcInside := nofun
  latch := .inl ⟨rfl, rfl, rfl⟩
  contexts := fun k _ h => by cases k <;> cases h
  scaler := fun _ => ⟨rfl, rfl, rfl, rfl, rfl⟩
  widths := rfl

/-- Settles O59: `readReg` shows each register's own field. -/
theorem registersReadTheirFields : Obligations.RegistersReadTheirFields :=
  fun _ => ⟨rfl, rfl, rfl, rfl, rfl, rfl, rfl, rfl, rfl, rfl, rfl, rfl, rfl, rfl, rfl⟩

end Sys2Proof.Machine

/-! SUPPORT. The memories of the block: the addresses of the texels, what a store writes, the
invariant that every step keeps, and that no command reads DST (20_memory.md). -/

namespace Sys2Proof.Machine

/-! ## The addresses of the texels -/

/-- In one row TexelAddr never decreases (20_memory.md R90). -/
theorem texelAddr_row_mono (c : Config) (r : Regs) (y : Nat) {x x' : Nat} (h : x ≤ x') :
    texelAddr c r x y ≤ texelAddr c r x' y := by
  obtain rfl | hlt := Nat.eq_or_lt_of_le h
  · exact Nat.le_refl _
  · exact (Nat.le_add_right _ _).trans (texelAddr_row_lt c r y hlt)

/-- Cell `a` of row `b` in rows of `n` cells: the number gives both back. -/
theorem rowMajor_inj {n a a' b b' : Nat} (ha : a < n) (ha' : a' < n)
    (h : b * n + a = b' * n + a') : a = a' ∧ b = b' := by
  have hmod : a = a' := by simpa [Nat.mod_eq_of_lt, ha, ha'] using congrArg (· % n) h
  subst hmod
  exact ⟨rfl, Nat.eq_of_mul_eq_mul_right (Nat.zero_lt_of_lt ha) (Nat.add_right_cancel h)⟩

/-- Tiles are row-major in the pitch and texels row-major in their tile, so inside the pitch an
address is of one texel only (20_memory.md R90). -/
theorem texelAddr_inj {c : Config} {r : Regs} (hc : 0 < c.texelBytes) {x y x' y' : Nat}
    (hx : x < 4 * r.dstPitch.toNat) (hx' : x' < 4 * r.dstPitch.toNat)
    (h : texelAddr c r x y = texelAddr c r x' y') : x = x' ∧ y = y' := by
  rw [texelAddr_eq, texelAddr_eq] at h
  have htexel := Nat.eq_of_mul_eq_mul_right hc (Nat.add_left_cancel h)
  obtain ⟨hin, htile⟩ := rowMajor_inj (by omega) (by omega) htexel
  obtain ⟨htx, hty⟩ := rowMajor_inj (by omega) (by omega) htile
  omega

/-- Settles O36, the injectivity by `texelAddr_inj`. -/
theorem texelAddrInjective : Obligations.TexelAddrInjective := fun c r hc =>
  ⟨fun _ _ => rfl, fun _ _ y h => texelAddr_row_lt c r y h,
    fun _ _ _ _ hx hx' h => texelAddr_inj hc hx hx' h⟩

/-- Settles O37: the base and every texel's distance from it are multiples of TEXEL_BYTES. -/
theorem texelStoresAligned : Obligations.TexelStoresAligned := by
  intro c r x y _ hbase
  have hdvd : c.texelBytes ∣ r.dstBase.toNat :=
    (Nat.dvd_mul_left _ 16).trans (Nat.dvd_of_mod_eq_zero hbase)
  rw [texelAddr_eq]
  exact Nat.mod_eq_zero_of_dvd (hdvd.add (Nat.dvd_mul_left _ _))

/-! ## Stores -/

/-- Settles O38, by what a store's bytes read as. -/
theorem dstWriteIsBigEndian : Obligations.DstWriteIsBigEndian := by
  intro m addr n v _
  refine ⟨fun b hb => ⟨byteOf n v b, ?_, byteOf_toNat n v b⟩, fun a ha => ?_⟩
  · rw [dstWrite_read?, if_pos (by omega), Nat.add_sub_cancel_left]
  · rw [dstWrite_read?, if_neg]
    rintro ⟨hlo, hhi⟩
    exact ha _ (Nat.sub_lt_left_of_lt_add hlo hhi) (Nat.add_sub_cancel' hlo).symm

/-! ## The invariant through the state's updates -/

section Invariant

variable {s : State}

theorem State.Inv.setPending (h : s.Inv) (es : List HostEvent) : (s.setPending es).Inv := { h with }

theorem State.Inv.logRead (h : s.Inv) (v : Word) : (s.logRead v).Inv := { h with }

theorem State.Inv.setSs (h : s.Inv) {v : ScalerState} (hv : ScalerOk v) : (s.setSs v).Inv :=
  { h with scaler := hv }

theorem State.Inv.setOutwRes (h : s.Inv) {v : Word} (hv : WidthsOk v) : (s.setOutwRes v).Inv :=
  { h with widths := hv }

theorem State.Inv.setLatch (h : s.Inv) {l : FaultLatch} (hl : LatchOk l) : (s.setLatch l).Inv :=
  { h with latch := hl }

theorem State.Inv.setRow (h : s.Inv) {m : Memory} (hm : Memory.wf m)
    (hin : ∀ cell ∈ m, cell.1 < s.cfg.dstMemBytes) (clipped : Bool) : (s.setRow m clipped).Inv :=
  { h with dstCanonical := hm, dstInside := hin }

/-- A context put in place is well formed; the other kind's stays as it was. -/
theorem State.Inv.setCtx (h : s.Inv) (k : Kind) {c : Option FilterContext}
    (hc : ∀ x, c = some x → ContextOk s.cfg k x) : (s.setCtx k c).Inv := by
  have hctx : ∀ k' x, (s.setCtx k c).ctx k' = some x → ContextOk s.cfg k' x := by
    intro k' x hx
    by_cases hk : k' = k
    · subst hk
      exact hc x (by simpa using hx)
    · exact h.contexts k' x (by rwa [State.setCtx_ctx_ne _ _ _ _ hk] at hx)
  cases k <;> exact { h with contexts := hctx }

/-- A raised fault sets one of the nine codes, or keeps the first (60_exceptions.md R241, R248). -/
theorem State.Inv.raise (h : s.Inv) (f : FaultCause) (info : Word) : (raise f info s).Inv := by
  cases hf : s.latch.fault
  · rw [raise_of_live hf]
    exact h.setLatch (.inr ⟨rfl, f.code_range⟩)
  · rwa [raise_of_frozen hf]

/-- A register write stores in the line buffer only inside its 2048 entries (20_memory.md R82). -/
theorem State.Inv.storeReg (h : s.Inv) {r : Reg} (hr : regNamed r = true) (v : Word) :
    (storeReg r v s).Inv := by
  cases r
  case lineBuf i =>
    refine { h with srcCanonical := srcWrite_canonical h.srcCanonical i _, srcInside := ?_ }
    intro cell hcell
    obtain rfl | hold := Cells.mem_set hcell
    · have hi : i ≤ 2047 := by simpa [regNamed] using hr
      exact Nat.lt_succ_of_le hi
    · exact h.srcInside cell hold
  all_goals exact { h with }

/-- Reset keeps the configuration and DST and gives every other piece its reset value
(70_reset_and_hazards.md R270, R272). -/
theorem State.Inv.hardReset (h : s.Inv) : (hardReset s).Inv :=
  { resetMeetsInvariant with
    config := h.config
    dstCanonical := h.dstCanonical
    dstInside := h.dstInside
    contexts := fun k _ hx => by simp at hx }

/-! ## The invariant through the commands -/

/-- The context FINIT builds has a preset, knobs in range and a total table
(42_filter_init.md R184, R186). -/
theorem builtContext_ok (h : s.cfg.Valid) (f : FilterModel) (k : Kind) {p : Preset} (hp : p ≠ .off) :
    ContextOk s.cfg k (builtContext f k p s) :=
  ⟨hp, clampedKnobs_inRange h _, buildLut_length _ _ _ _ _⟩

theorem State.Inv.releaseCtx (h : s.Inv) (k : Kind) : (releaseCtx k s).Inv := h.setCtx k nofun

theorem State.Inv.finitEffect (h : s.Inv) (f : FilterModel) (k : Kind) (p : Preset) :
    (finitEffect f k p s).Inv := by
  by_cases hp : p = .off
  · subst hp
    rw [finitEffect_off]
    exact h.setCtx k nofun
  · rw [finitEffect_build f k hp]
    refine h.setCtx k fun x hx => ?_
    cases hx
    exact builtContext_ok h.config f k hp

/-- Both widths of the width domain fit their halves of OUTW_RES, so no half is truncated
(43_filter_blit.md R203). -/
theorem outwWord_ok {q : KindParams} (hq : q.Valid) {w : Nat} (hw : w ≤ 2047) :
    WidthsOk (outwWord q w) := by
  have hOW := KindParams.outputWidth_le hq hw
  have hRW : roundedWidth q w = outputWidth q w / 4 * 4 := rfl
  unfold WidthsOk bits
  rw [outwWord_toNat, hRW]
  omega

theorem State.Inv.outwEffect (h : s.Inv) (k : Kind) (w : Nat) : (outwEffect k w s).Inv := by
  obtain ⟨hw, he⟩ | ⟨_, he⟩ := outwEffect_cases k w s
  · rw [he]
    obtain ⟨_, hle⟩ := of_decide_eq_true hw
    exact h.setOutwRes (outwWord_ok (Config.kind_valid h.config k) hle)
  · rw [he]
    exact h.raise _ _

/-- Check 7 bounds the last texel of the row, and with it every store (43_filter_blit.md R209). -/
theorem blitMemory_inRange (h : s.Inv) (f : FilterModel) {k : Kind} {w line : Nat}
    (hc : blitCheck k w line s = none) :
    ∀ cell ∈ blitMemory f k w line s, cell.1 < s.cfg.dstMemBytes := by
  intro cell hcell
  obtain ⟨_, _, _, _, _, hlast, _⟩ := blitCheck_eq_none.mp hc
  obtain hold | ⟨st, hst, hlo, hhi⟩ := dstWriteAll_mem hcell
  · exact h.dstInside cell hold
  · obtain ⟨j, hj, rfl⟩ := mem_blitStores.mp hst
    have hle := texelAddr_row_mono s.cfg s.regs line (Nat.le_sub_one_of_lt hj)
    simp only at hhi
    omega

theorem State.Inv.blitEffect (h : s.Inv) (f : FilterModel) (k : Kind) (w line : Nat) :
    (blitEffect f k w line s).Inv := by
  obtain ⟨_, _, he⟩ | ⟨hc, he⟩ := blitEffect_cases f k w line s
  · rw [he]
    exact h.raise _ _
  · rw [he]
    exact h.setRow (dstWriteAll_wf h.dstCanonical _ _) (blitMemory_inRange h f hc) _

/-- RESOLVE makes SS valid, of which the invariant then says nothing (10_state.md R46). -/
theorem State.Inv.resolveEffect (h : s.Inv) : (resolveEffect s).Inv := h.setSs nofun

theorem State.Inv.effect (h : s.Inv) (i : Instr) : (effect i s).Inv := by
  cases i with
  | nop => exact h
  | finit k p => exact h.finitEffect _ k p
  | ffree k => exact h.releaseCtx k
  | outw k w => exact h.outwEffect k w
  | blit k w line => exact h.blitEffect _ k w line
  | resolve => exact h.resolveEffect

theorem State.Inv.exec (h : s.Inv) {i : Instr} {t : State} (he : exec i s = .next t) : t.Inv := by
  obtain ⟨_, rfl⟩ | ⟨_, rfl⟩ := exec_eq_next.mp he
  · exact h
  · exact h.effect i

/-! ## The invariant through the host's accesses -/

theorem State.Inv.hostRead (h : s.Inv) (off : Word) (size : Nat) : (hostRead off size s).Inv := by
  obtain ⟨r, _, he⟩ | ⟨_, he⟩ := hostRead_cases off size s
  · rw [he]
    exact h.logRead _
  · rw [he]
    exact (h.raise _ _).logRead _

theorem State.Inv.hostWrite (h : s.Inv) {off : Word} {size : Nat} {v : Word} {t : State}
    (he : hostWrite off size v s = .next t) : t.Inv := by
  obtain ⟨_, rfl⟩ | ⟨_, ⟨_, rfl⟩ | ⟨_, i, _, hi⟩ | ⟨_, _, rfl⟩ | ⟨r, _, hr, rfl⟩⟩ := hostWrite_cases he
  · exact h
  · exact h.raise _ _
  · exact h.exec hi
  · exact h.raise _ _
  · obtain ⟨hnamed, _⟩ := regAt_eq_some.mp hr
    exact h.storeReg hnamed v

theorem State.Inv.hostEvent (h : s.Inv) {e : HostEvent} {t : State}
    (he : hostEvent e s = .next t) : t.Inv := by
  cases e with
  | read off size =>
    cases he
    exact h.hostRead off size
  | write off size v => exact h.hostWrite he
  | rst =>
    cases he
    exact h.hardReset

end Invariant

/-- Settles O54: a step is the next host event on the queue without it. -/
theorem stepKeepsInvariant : Obligations.StepKeepsInvariant := by
  intro s t h ht
  obtain ⟨_, ⟨_, rfl⟩ | ⟨e, rest, _, he⟩⟩ := step_cases ht
  · exact h
  · exact (h.setPending rest).hostEvent he

/-! ## The commands over other bytes of DST -/

theorem raise_withDst (f : FaultCause) (info : Word) (s : State) (m : Memory) :
    raise f info { s with dst := m } = { raise f info s with dst := m } := by
  unfold raise
  split <;> rfl

theorem outwEffect_withDst (k : Kind) (w : Nat) (s : State) (m : Memory) :
    outwEffect k w { s with dst := m } = { outwEffect k w s with dst := m } := by
  unfold outwEffect
  rw [raise_withDst]
  split <;> rfl

theorem finitEffect_withDst (f : FilterModel) (k : Kind) (p : Preset) (s : State) (m : Memory) :
    finitEffect f k p { s with dst := m } = { finitEffect f k p s with dst := m } := by
  unfold finitEffect
  split <;> cases k <;> rfl

/-- A command other than BLIT neither reads nor writes DST. -/
theorem effect_withDst {i : Instr} (hi : ∀ k w line, i ≠ .blit k w line) (s : State) (m : Memory) :
    effect i { s with dst := m } = { effect i s with dst := m } := by
  cases i with
  | nop => rfl
  | finit k p => exact finitEffect_withDst _ k p s m
  | ffree k => cases k <;> rfl
  | outw k w => exact outwEffect_withDst k w s m
  | blit k w line => exact absurd rfl (hi k w line)
  | resolve => rfl

/-- BLIT's checks do not look at DST (43_filter_blit.md R209). -/
theorem blitCheck_withDst (k : Kind) (w line : Nat) (s : State) (m : Memory) :
    blitCheck k w line { s with dst := m } = blitCheck k w line s := by
  cases k <;> rfl

theorem blitEffect_withDst_of_fault (f : FilterModel) {k : Kind} {w line : Nat} {s : State}
    {cause : FaultCause} (hc : blitCheck k w line s = some cause) (m : Memory) :
    blitEffect f k w line { s with dst := m } = { blitEffect f k w line s with dst := m } := by
  unfold blitEffect
  rw [blitCheck_withDst, hc]
  exact raise_withDst _ _ _ _

theorem blitEffect_withDst_of_store (f : FilterModel) {k : Kind} {w line : Nat} {s : State}
    (hc : blitCheck k w line s = none) (m : Memory) :
    blitEffect f k w line { s with dst := m } =
      { blitEffect f k w line s with dst := blitMemory f k w line { s with dst := m } } := by
  unfold blitEffect
  rw [blitCheck_withDst, hc]
  rfl

/-- A BLIT stores the same bytes whatever DST holds (43_filter_blit.md R208, R225). -/
theorem blitMemory_withDst_inside (f : FilterModel) (k : Kind) (w line : Nat) (s : State)
    (m : Memory) {j b : Nat} (hj : j < storedWidth (s.cfg.kind k) s.regs w)
    (hb : b < s.cfg.texelBytes) :
    Memory.read? (blitMemory f k w line { s with dst := m })
        (texelAddr s.cfg s.regs j line + b) =
      Memory.read? (blitMemory f k w line s) (texelAddr s.cfg s.regs j line + b) := by
  rw [blitMemory_inside f k w line s hj hb]
  exact blitMemory_inside f k w line { s with dst := m } hj hb

theorem blitMemory_withDst_outside (f : FilterModel) (k : Kind) (w line : Nat) (s : State)
    (m : Memory) {a : Nat}
    (ha : ∀ j < storedWidth (s.cfg.kind k) s.regs w, ∀ b < s.cfg.texelBytes,
      a ≠ texelAddr s.cfg s.regs j line + b) :
    Memory.read? (blitMemory f k w line { s with dst := m }) a = Memory.read? m a := by
  refine blitMemory_outside f k w line { s with dst := m } a fun j hj ⟨hlo, hhi⟩ => ?_
  exact ha j hj _ (Nat.sub_lt_left_of_lt_add hlo hhi) (Nat.add_sub_cancel' hlo).symm

/-- A live block over other bytes of DST answers what its command's effect over them is. -/
theorem exec_withDst {i : Instr} {s : State} {m m' : Memory} (hf : s.latch.fault = false)
    (he : effect i { s with dst := m } = { effect i s with dst := m' }) :
    exec i { s with dst := m } = .next { effect i s with dst := m' } := by
  rw [← he]
  exact exec_of_live (s := { s with dst := m }) hf i

/-- Settles O52: a frozen block, a BLIT that faults and every other command leave DST alone; a BLIT
that stores writes its own texels over `m`. -/
theorem commandsNeverReadDst : Obligations.CommandsNeverReadDst := by
  intro i s t m h
  obtain ⟨hf, rfl⟩ | ⟨hf, rfl⟩ := exec_eq_next.mp h
  · exact ⟨m, exec_of_frozen (s := { t with dst := m }) hf i, fun _ => rfl, fun _ => rfl,
      fun _ _ _ _ hlive => by simp [hf] at hlive⟩
  by_cases hi : ∀ k w line, i ≠ .blit k w line
  · exact ⟨m, exec_withDst hf (effect_withDst hi s m), fun _ => rfl, fun _ => rfl,
      fun k w line hb => absurd hb (hi k w line)⟩
  push Not at hi
  obtain ⟨k, w, line, rfl⟩ := hi
  obtain ⟨cause, hc, he⟩ | ⟨hc, he⟩ := blitEffect_cases Config.filterModel k w line s
  · refine ⟨m, exec_withDst hf (blitEffect_withDst_of_fault _ hc m), fun _ => rfl, fun _ => rfl,
      fun _ _ _ _ hlive => ?_⟩
    simp [effect, he] at hlive
  · refine ⟨_, exec_withDst hf (blitEffect_withDst_of_store _ hc m),
      fun hne => absurd rfl (hne k w line), fun hfault => ?_, fun k' w' line' heq _ => ?_⟩
    · simp [effect, he, hf] at hfault
    · cases heq
      simp only [effect, he, State.setRow_dst]
      exact ⟨fun j hj b hb => blitMemory_withDst_inside _ k w line s m hj hb,
        fun a ha => blitMemory_withDst_outside _ k w line s m ha⟩

end Sys2Proof.Machine

/-! SUPPORT. The command words and the host script: which word is which command, what makes a word
illegal, the accesses of each statement, and the statements of 30_encoding.md that follow from
them. -/

namespace Sys2Proof.Machine

open Sys2Proof.Statement

/-! ## The formats of the command words -/

/-- The fields of `c` are those of a command: its opcode, the reserved bits of its format 0, and its
operands in place (30_encoding.md R111, R112, R120). -/
def HasFormat (c : Word) : Instr → Prop
  | .nop => bits c 31 28 = 0 ∧ bits c 27 0 = 0
  | .finit k p => bits c 31 28 = 1 ∧ bits c 26 3 = 0 ∧ bits c 27 27 = kindBit k ∧
      bits c 2 0 = presetCode p
  | .ffree k => bits c 31 28 = 2 ∧ bits c 26 0 = 0 ∧ bits c 27 27 = kindBit k
  | .outw k w => bits c 31 28 = 3 ∧ bits c 15 0 = 0 ∧ bits c 27 27 = kindBit k ∧ bits c 26 16 = w
  | .blit k w line => bits c 31 28 = 4 ∧ bits c 15 10 = 0 ∧ bits c 27 27 = kindBit k ∧
      bits c 26 16 = w ∧ bits c 9 0 = line
  | .resolve => bits c 31 28 = 5 ∧ bits c 27 0 = 0

@[simp] theorem ifReservedZero_eq_ok_iff {field : Nat} {f : Except Illegal Instr} {i : Instr} :
    ifReservedZero field f = .ok i ↔ field = 0 ∧ f = .ok i := by
  unfold ifReservedZero
  split <;> simp [*]

@[simp] theorem ifReservedZero_eq_error_iff {field : Nat} {f : Except Illegal Instr} :
    (∃ e, ifReservedZero field f = .error e) ↔ field ≠ 0 ∨ ∃ e, f = .error e := by
  unfold ifReservedZero
  split <;> simp [*]

/-- The bit K of a word is the bit of the kind it selects (30_encoding.md R120). -/
theorem bits_kind (c : Word) : bits c 27 27 = kindBit (kindOfBit (bits c 27 27)) :=
  (kindBit_kindOfBit (bits_lt c 27 27)).symm

/-- K = 0 is LR and K = 1 is HR (30_encoding.md R120). -/
theorem kind_iff_of_eq_kindBit {b : Nat} {k : Kind} (h : b = kindBit k) :
    (k = .lr ↔ b = 0) ∧ (k = .hr ↔ b = 1) := by
  subst h
  cases k <;> decide

/-- The codes that name a preset (30_encoding.md R118). -/
theorem exists_presetCode_iff {n : Nat} : (∃ p, n = presetCode p) ↔ n ≤ 4 := by
  refine ⟨fun ⟨p, hp⟩ => hp ▸ presetCode_le p, fun h => ?_⟩
  obtain ⟨p, hp⟩ := Option.ne_none_iff_exists'.mp (mt presetOfCode_none.mp (by omega : ¬5 ≤ n))
  exact ⟨p, (presetCode_of_presetOfCode hp).symm⟩

/-- The decoder answers a command exactly for the words of its format. -/
theorem decode_eq_ok_iff {c : Word} {i : Instr} : decode c = .ok i ↔ HasFormat c i := by
  constructor
  · intro h
    have hk := bits_kind c
    obtain ⟨hop, hres, rfl⟩ | ⟨hop, hres, p, hp, rfl⟩ | ⟨hop, hres, rfl⟩ | ⟨hop, hres, rfl⟩ |
      ⟨hop, hres, rfl⟩ | ⟨hop, hres, rfl⟩ := decode_cases h
    · exact ⟨hop, hres⟩
    · exact ⟨hop, hres, hk, (presetCode_of_presetOfCode hp).symm⟩
    · exact ⟨hop, hres, hk⟩
    · exact ⟨hop, hres, hk, rfl⟩
    · exact ⟨hop, hres, hk, rfl, rfl⟩
    · exact ⟨hop, hres⟩
  · intro h
    cases i <;> simp_all [HasFormat, decode]

/-- A word has the format of a command exactly when it is the encoding of that command, every
operand within its field. -/
theorem hasFormat_iff {c : Word} {i : Instr} : HasFormat c i ↔ i.wf = true ∧ encode i = c := by
  have hc := c.isLt
  rw [← BitVec.toNat_inj]
  cases i
  all_goals simp only [HasFormat, Instr.wf, widthFits, lineFits, Bool.and_eq_true,
    decide_eq_true_eq, true_and, encode, bits, BitVec.toNat_ofNat, BitVec.reduceToNat]
  case nop | resolve => omega
  case finit k p =>
    have hk := kindBit_lt k
    have hp := presetCode_le p
    omega
  case ffree k | outw k _ | blit k _ _ =>
    have hk := kindBit_lt k
    omega

/-! ## The illegal words -/

/-- The opcodes 6 to 15 are no command's (30_encoding.md R121 (a)). -/
theorem decode_of_opcode_ge {c : Word} (h : 6 ≤ bits c 31 28) : decode c = .error .opcode := by
  unfold decode
  split
  case h_7 => rfl
  all_goals omega

/-- The decoder answers an error exactly for the words of 30_encoding.md R121. -/
theorem decode_eq_error_iff {c : Word} : (∃ e, decode c = .error e) ↔ IllegalWord c := by
  by_cases hop : 6 ≤ bits c 31 28
  · simp [decode_of_opcode_ge hop, IllegalWord, hop]
  unfold decode IllegalWord
  split
  case h_2 h =>
    cases hp : presetOfCode (bits c 2 0) <;> simp [h, ← presetOfCode_none, hp]
  case h_7 =>
    simp only [imp_false] at *
    omega
  all_goals simp [*]

/-- A write of an illegal word to CMD raises E_ILLCMD (30_encoding.md R121). -/
theorem writeCmd_of_illegalWord {c : Word} (h : IllegalWord c) (s : State) :
    writeCmd c s = .next (raise .illCmd c s) := by
  obtain ⟨e, he⟩ := decode_eq_error_iff.mpr h
  simp [writeCmd, he]

/-! ## Match and mask -/

/-- Two words agree in a field exactly when they agree in each of its bits. -/
theorem bits_eq_iff {v w : Word} {hi lo : Nat} :
    bits v hi lo = bits w hi lo ↔ ∀ i, lo ≤ i → i ≤ hi → v.getLsbD i = w.getLsbD i := by
  have hbit (x : Word) (j : Nat) : (bits x hi lo).testBit j =
      (decide (j < hi + 1 - lo) && x.getLsbD (lo + j)) := by
    rw [bits, Nat.testBit_mod_two_pow, ← Nat.shiftRight_eq_div_pow, Nat.testBit_shiftRight,
      BitVec.getLsbD]
  simp only [Nat.eq_iff_testBit_eq, hbit]
  constructor
  · intro h i hlo hhi
    obtain ⟨j, rfl⟩ := Nat.exists_eq_add_of_le hlo
    simpa [show j < hi + 1 - lo by omega] using h j
  · intro h j
    by_cases hj : j < hi + 1 - lo
    · rw [h (lo + j) (by omega) (by omega)]
    · simp [hj]

/-- Two words agree under a mask exactly when they agree in each bit that the mask sets. -/
theorem and_eq_and_iff {c word mask : Word} : c &&& mask = word &&& mask ↔
    ∀ i < 32, mask.getLsbD i = true → c.getLsbD i = word.getLsbD i := by
  rw [BitVec.eq_of_getLsbD_eq_iff]
  refine forall₂_congr fun i _ => ?_
  cases hm : mask.getLsbD i <;> simp [hm]

/-- The fields of a format against its match and mask columns (30_encoding.md R112): a mask of the
opcode and the reserved bits `hi:lo`, and the match `word` with opcode `op` and those bits 0. -/
theorem fields_iff_and_mask {c mask word : Word} {op hi lo : Nat} (hhi : hi < 32)
    (hmask : ∀ i < 32, mask.getLsbD i = decide (28 ≤ i ∨ lo ≤ i ∧ i ≤ hi))
    (hword : word &&& mask = word) (hop : bits word 31 28 = op) (hres : bits word hi lo = 0) :
    bits c 31 28 = op ∧ bits c hi lo = 0 ↔ c &&& mask = word := by
  symm
  calc c &&& mask = word ↔ c &&& mask = word &&& mask := by rw [hword]
    _ ↔ ∀ i < 32, (28 ≤ i ∨ lo ≤ i ∧ i ≤ hi) → c.getLsbD i = word.getLsbD i := by
      rw [and_eq_and_iff]
      exact forall₂_congr fun i hlt => by rw [hmask i hlt, decide_eq_true_eq]
    _ ↔ bits c 31 28 = bits word 31 28 ∧ bits c hi lo = bits word hi lo := by
      simp only [bits_eq_iff]
      constructor
      · intro h
        exact ⟨fun i hl _ => h i (by omega) (.inl hl),
          fun i hl hh => h i (by omega) (.inr ⟨hl, hh⟩)⟩
      · rintro ⟨hopcode, hreserved⟩ i hlt (hl | ⟨hl, hh⟩)
        · exact hopcode i hl (by omega)
        · exact hreserved i hl hh
    _ ↔ bits c 31 28 = op ∧ bits c hi lo = 0 := by rw [hop, hres]

/-! ## The accesses of a script -/

/-- A script is rejected exactly when one of its statements is out of range. -/
theorem assemble_eq_none_iff {script : List Stmt} :
    assemble script = none ↔ ∃ st ∈ script, st.inRange = false := by
  simp [assemble]

theorem assemble_eq_some_iff {script : List Stmt} {es : List HostEvent} :
    assemble script = some es ↔
      (∀ st ∈ script, st.inRange = true) ∧ script.flatMap Stmt.events = es := by
  simp [assemble]

/-- The accesses of two scripts in a row are those of the first, then those of the second. -/
theorem assemble_append {a b : List Stmt} {ea eb : List HostEvent}
    (ha : assemble a = some ea) (hb : assemble b = some eb) :
    assemble (a ++ b) = some (ea ++ eb) := by
  obtain ⟨hra, rfl⟩ := assemble_eq_some_iff.mp ha
  obtain ⟨hrb, rfl⟩ := assemble_eq_some_iff.mp hb
  refine assemble_eq_some_iff.mpr ⟨fun st hst => ?_, List.flatMap_append⟩
  exact (List.mem_append.mp hst).elim (hra st) (hrb st)

/-- A statement's range `P` and accesses `es` are what a script of it alone assembles to. -/
theorem assemble_eq_ite {st : Stmt} {P : Prop} [Decidable P] {es : List HostEvent}
    (hrange : st.inRange = true ↔ P) (hevents : st.events = es) :
    assemble [st] = if P then some es else none := by
  simp [assemble_singleton, hrange, hevents]

@[simp] theorem immFits_iff {v : Nat} : immFits v = true ↔ v < 4294967296 := decide_eq_true_iff

@[simp] theorem knobFits_iff {v : Int} : knobFits v = true ↔ -32768 ≤ v ∧ v ≤ 32767 :=
  decide_eq_true_iff

@[simp] theorem regNamed_lineBuf {i : Nat} : regNamed (.lineBuf i) = true ↔ i ≤ 2047 :=
  decide_eq_true_iff

/-- WR writes its register, if there is one of that name and the value is an imm32. -/
theorem assemble_wr (r : Reg) (imm : Nat) : assemble [.wr r imm] =
    if regNamed r = true ∧ imm < 4294967296 then
      some [.write r.offset 4 (BitVec.ofNat 32 imm)] else none :=
  assemble_eq_ite (by simp [Stmt.inRange]) rfl

/-- RD reads its register, if there is one of that name. -/
theorem assemble_rd (r : Reg) : assemble [.rd r] =
    if regNamed r = true then some [.read r.offset 4] else none :=
  assemble_eq_ite Iff.rfl rfl

/-- A command is a write of its encoding to CMD, if its operands fit their fields. -/
theorem assemble_command (i : Instr) : assemble [.command i] =
    if i.wf = true then some [.write 0 4 (encode i)] else none :=
  assemble_eq_ite Iff.rfl rfl

/-- The accesses of ROW, entry by entry. -/
theorem events_row (vs : List Nat) : (Stmt.row vs).events = (List.range vs.length).map fun n =>
    .write (BitVec.ofNat 32 (0x1000 + 4 * n)) 4 (BitVec.ofNat 32 (vs.getD n 0)) := by
  refine List.ext_getElem (by simp [Stmt.events]) fun n h _ => ?_
  have hn : n < vs.length := by simpa [Stmt.events] using h
  simp [Stmt.events, writeTo, Reg.offset, hn]

/-! ## The statements -/

/-- Settles O2: an encoding has its command's format. -/
theorem decodeOfEncode : Obligations.DecodeOfEncode :=
  fun _ hwf => decode_eq_ok_iff.mpr (hasFormat_iff.mpr ⟨hwf, rfl⟩)

/-- Settles O3: a legal word has its command's format. -/
theorem encodeOfDecode : Obligations.EncodeOfDecode :=
  fun _ _ h => hasFormat_iff.mp (decode_eq_ok_iff.mp h)

/-- Settles O4: each mask is the opcode and the reserved bits of the format, and the operands are
free, but for PRESET. -/
theorem opcodeMapDecides : Obligations.OpcodeMapDecides := by
  intro c
  have hkind : ∃ k, bits c 27 27 = kindBit k := ⟨_, bits_kind c⟩
  simp only [decode_eq_ok_iff, HasFormat, exists_and_left, exists_and_right, exists_eq', hkind,
    exists_presetCode_iff, and_true, true_and]
  refine ⟨?_, and_assoc.symm.trans (and_congr_left' ?_), ?_, ?_, ?_, ?_, decode_of_opcode_ge⟩
  all_goals exact fields_iff_and_mask (by decide) (by decide) (by decide) (by decide) (by decide)

/-- Settles O5: the operands are those of the command's format. -/
theorem decodedOperands : Obligations.DecodedOperands := by
  intro c
  simp only [decode_eq_ok_iff, HasFormat]
  refine ⟨fun k p ⟨_, _, hk, hp⟩ => ?_, fun k ⟨_, _, hk⟩ => kind_iff_of_eq_kindBit hk,
    fun k w ⟨_, _, hk, hw⟩ => ?_, fun k w line ⟨_, _, hk, hw, hline⟩ => ?_⟩
  all_goals obtain ⟨hlr, hhr⟩ := kind_iff_of_eq_kindBit hk
  · refine ⟨hlr, hhr, ?_⟩
    rw [hp]
    cases p <;> decide
  · exact ⟨hlr, hhr, hw.symm⟩
  · exact ⟨hlr, hhr, hw.symm, hline.symm⟩

/-- Settles O6: opcode by opcode. -/
theorem illegalWordsAreRejected : Obligations.IllegalWordsAreRejected :=
  fun _ => decode_eq_error_iff

/-- Settles O8: the write reaches CMD, whose word the decoder rejects. -/
theorem illegalWordRaisesIllCmd : Obligations.IllegalWordRaisesIllCmd := by
  intro s c rest h hill
  have hlive := live_of_nextAccess h
  have hcmd : regAt 0 4 = some .cmd := rfl
  rw [step_of_nextAccess h, hostEvent, hostWrite_of_cmd hlive hcmd, writeCmd_of_illegalWord hill,
    raise_of_live hlive]
  rfl

/-- Settles O57: statement by statement, its range and its accesses. -/
theorem scriptsAssemble : Obligations.ScriptsAssemble := by
  refine ⟨fun script => ?_, fun _ _ _ _ => assemble_append, fun e he imm => ?_, fun e he => ?_,
    fun i imm => ?_, fun i => ?_, fun i v => ?_, rfl, fun kb hkb => ?_, rfl, fun imm => ?_,
    fun off imm => ?_, fun off => ?_⟩
  · simp [assemble_eq_none_iff]
  · obtain ⟨hoff, _, hnamed⟩ := registerTable_named e he
    simp [assemble_wr, hnamed, hoff]
  · obtain ⟨hoff, _, hnamed⟩ := registerTable_named e he
    simp [assemble_rd, hnamed, hoff]
  · simp [assemble_wr, Reg.offset]
  · simp [assemble_rd, Reg.offset]
  · exact assemble_eq_ite (by simp [Stmt.inRange]) rfl
  · have hk : kb.2 = kindBit kb.1 := by fin_cases hkb <;> rfl
    rw [hk]
    refine ⟨fun pc hpc => ?_, assemble_command _, fun w => ?_, fun w line => ?_⟩
    · have hp : pc.2 = presetCode pc.1 := by fin_cases hpc <;> rfl
      rw [hp]
      exact assemble_command _
    · exact assemble_eq_ite (by simp [Stmt.inRange, Instr.wf, widthFits]) rfl
    · exact assemble_eq_ite (by simp [Stmt.inRange, Instr.wf, widthFits, lineFits]) rfl
  all_goals exact assemble_eq_ite (by simp [Stmt.inRange]) rfl

/-- Settles O58: statement by statement, its range and its accesses. -/
theorem pseudoStatementsExpand : Obligations.PseudoStatementsExpand := by
  refine ⟨fun vs => ?_, fun s r a f b => ?_, fun base pitch lines => ?_, fun w h ctrl => ?_⟩
  · exact assemble_eq_ite (by simp [Stmt.inRange]) (events_row vs)
  · simp only [← and16_eq]
    exact assemble_eq_ite (by simp [Stmt.inRange, and_assoc]) rfl
  all_goals exact assemble_eq_ite (by simp [Stmt.inRange, and_assoc]) rfl

/-- Settles O1: eleven closed evaluations of the decoder and the encoder. -/
theorem workedEncodings : Obligations.WorkedEncodings := by
  unfold Obligations.WorkedEncodings
  decide

end Sys2Proof.Machine

/-! SUPPORT. Host accesses, legal and illegal, and NOP: what an illegal access answers, what a
write-only register reads and a read-only one stores, and the statements of
40_host_access_and_nop.md that follow from them. -/

namespace Sys2Proof.Machine

open Sys2Proof.Statement

/-! ## Illegal accesses -/

theorem hostRead_of_regAt_none {off : Word} {size : Nat} (h : regAt off size = none) (s : State) :
    hostRead off size s = (raise .bus off s).logRead 0 := by
  simp [hostRead, h]

theorem hostWrite_of_regAt_none {s : State} (hf : s.latch.fault = false) {off : Word} {size : Nat}
    (h : regAt off size = none) (v : Word) : hostWrite off size v s = .next (raise .bus off s) := by
  simp [hostWrite, hf, h]

/-- A step that makes an illegal read raises E_BUS, unless a fault is latched, and returns 0
(40_host_access_and_nop.md R140). -/
theorem step_of_read_illegal {s : State} (hc : s.cfg.Valid) {off : Word} {size : Nat}
    {rest : List HostEvent} (hp : s.host.pending = .read off size :: rest)
    (h : regAt off size = none) :
    step s = .next ((raise .bus off (s.setPending rest)).logRead 0) := by
  rw [step_of_pending hc hp, hostEvent, hostRead_of_regAt_none h]

/-- A step that makes an illegal write in a live block latches E_BUS and the offset
(40_host_access_and_nop.md R141, R142). -/
theorem step_of_write_illegal {s : State} {off : Word} {size : Nat} {v : Word}
    {rest : List HostEvent} (hn : NextAccess s (.write off size v) rest)
    (h : regAt off size = none) :
    step s = .next ((s.setPending rest).setLatch { fault := true, fcode := 2, fcmd := off }) := by
  have hlive := live_of_nextAccess hn
  rw [step_of_nextAccess hn, hostEvent, hostWrite_of_regAt_none hlive h, raise_of_live hlive]
  rfl

/-! ## Write-only and read-only registers -/

/-- A write-only register reads 0 (40_host_access_and_nop.md R140). -/
theorem readReg_of_wo {r : Reg} (h : r.access = .wo) (s : State) : readReg s r = 0 := by
  cases r
  case cmd | lineBuf => rfl
  all_goals cases h

/-- A write to a read-only register stores nothing (40_host_access_and_nop.md R141). -/
theorem storeReg_of_ro {r : Reg} (h : r.access = .ro) (v : Word) (s : State) :
    storeReg r v s = s := by
  cases r
  case status | faultInfo | faultCmd | outwRes | scXScale | scYScale | scXShift | scYShift => rfl
  all_goals cases h

/-- Every read-only register is one of the map of 10_state.md R34: no LINEBUF index is read-only. -/
theorem regNamed_of_ro {r : Reg} (h : r.access = .ro) : regNamed r = true := by
  cases r
  case lineBuf => cases h
  all_goals rfl

/-! ## NOP -/

/-- NOP changes nothing, in a frozen block as well (40_host_access_and_nop.md R145). -/
theorem exec_nop (s : State) : exec .nop s = .next s := by
  cases hf : s.latch.fault
  · exact exec_of_live hf .nop
  · exact exec_of_frozen hf .nop

/-- The words of opcode 0 other than NOP's are illegal: their reserved bits 27:0 are not all 0
(40_host_access_and_nop.md R145, 30_encoding.md R121 (b)). -/
theorem illegalWord_of_opcode_zero {c : Word} (hpos : 1 ≤ c.toNat) (hle : c.toNat ≤ 0x0FFFFFFF) :
    IllegalWord c := by
  have hop : bits c 31 28 = 0 := by
    unfold bits
    omega
  have hres : bits c 27 0 ≠ 0 := by
    unfold bits
    omega
  exact .inr (.inl ⟨hop, hres⟩)

/-! ## The statements -/

/-- Settles O12: a read reaches a register exactly at its offset, 32 bits wide; any other raises
E_BUS, which a frozen block does not take. -/
theorem hostReadAnswers : Obligations.HostReadAnswers := by
  intro s off size rest hc hp
  refine ⟨?_, fun hill => ?_⟩
  · rintro r hr rfl rfl
    exact ⟨step_of_read_reg hc hr hp, fun hwo => readReg_of_wo hwo s⟩
  · have hstep := step_of_read_illegal hc hp (regAt_eq_none.mpr hill)
    refine ⟨fun hf => ?_, fun hf => ?_⟩
    · rwa [raise_of_frozen (s := s.setPending rest) hf] at hstep
    · rwa [raise_of_live (s := s.setPending rest) hf] at hstep

/-- Settles O14: an illegal write reaches no register, and a write to a read-only one stores
nothing in it. -/
theorem illegalAndReadOnlyWrites : Obligations.IllegalAndReadOnlyWrites := by
  intro s off size v rest h
  refine ⟨fun hill => step_of_write_illegal h (regAt_eq_none.mpr hill), ?_⟩
  rintro r hro rfl rfl
  have hcmd : r ≠ .cmd := by
    rintro rfl
    cases hro
  rw [step_of_write_reg (regNamed_of_ro hro) hcmd h, storeReg_of_ro hro]

/-- Settles O21: NOP keeps every state, so reset's STATUS of 0 too, and the other words of opcode 0
have a reserved bit set. -/
theorem nopDoesNothing : Obligations.NopDoesNothing :=
  ⟨rfl, exec_nop,
    fun s c rest h hpos hle =>
      illegalWordRaisesIllCmd s c rest h (illegalWord_of_opcode_zero hpos hle),
    State.reset, exec_nop _, rfl⟩

end Sys2Proof.Machine

/-! SUPPORT. The resolver: its scales in each aspect mode, their ranges, the inputs each mode
ignores, and the statements of 41_scaler_resolve.md that follow from them. -/

namespace Sys2Proof.Machine

/-! ## The scales, mode by mode -/

section Modes

variable {c : Config} {x : ResolveInputs}

theorem xScale_of_original (h : x.aspectOrig = true) : xScale c x = originalXScale c x := by
  simp [xScale, h]

theorem xScale_of_manual (h : x.aspectOrig = false) : xScale c x = manualXScale x := by
  simp [xScale, h]

theorem yScaleSingle_of_original (h : x.aspectOrig = true) :
    yScaleSingle c x = originalYScale c x := by
  simp [yScaleSingle, h]

theorem yScaleSingle_of_manual (h : x.aspectOrig = false) : yScaleSingle c x = manualYScale x := by
  simp [yScaleSingle, h]

/-- Step 4 as a factor (41_scaler_resolve.md R161). -/
theorem yScale_eq_mul (c : Config) (x : ResolveInputs) :
    yScale c x = yScaleSingle c x * (if x.dblHeight = true then 2 else 1) := by
  unfold yScale
  split <;> simp

theorem yScale_of_single (h : x.dblHeight = false) : yScale c x = yScaleSingle c x := by
  simp [yScale, h]

/-- XS_CAL(b, t), selected by the overscan and then by the timing (41_scaler_resolve.md R156). -/
theorem xsCalOf_eq_ite (c : Config) (hwb wide : Bool) :
    xsCalOf c hwb wide =
      if hwb = true then (if wide = true then c.xsCal.hwbWide else c.xsCal.hwbNarrow)
      else if wide = true then c.xsCal.simWide else c.xsCal.simNarrow := by
  cases hwb <;> cases wide <;> rfl

/-- The full-bleed override of the horizontal scale (41_scaler_resolve.md R159). -/
theorem manualXScale_of_fullBleed (hb : x.borderlessNarrow = true) (ho : x.ovsH = false) :
    manualXScale x = 320 + x.ux := by
  simp [manualXScale, hb, ho]

/-- The full-bleed override of the vertical scale (41_scaler_resolve.md R159). -/
theorem manualYScale_of_fullBleed (hb : x.borderlessNarrow = true) (ho : x.ovsV = false) :
    manualYScale x = 112 + x.uy := by
  simp [manualYScale, hb, ho]

/-- Equal timing classes need no correction (41_scaler_resolve.md R155). -/
theorem originalYScale_of_sameClass (h : x.emuPal = x.hwPal) :
    originalYScale c x = baseYScale x := by
  simp [originalYScale, h]

/-- INTDBL with W as an unbounded integer, as the pseudocode of 41_scaler_resolve.md R151 has it. -/
theorem intdblFlag_eq_int (x : ResolveInputs) :
    intdblFlag x =
      (decide ((x.w : Int) ≤ 320) && !x.smooth && !x.filterOn &&
        decide (2 * (x.w : Int) ≤ 720)) := by
  have h320 : decide (x.w ≤ 320) = decide ((x.w : Int) ≤ 320) := decide_eq_decide.mpr (by omega)
  have h720 : decide (2 * x.w ≤ 720) = decide (2 * (x.w : Int) ≤ 720) :=
    decide_eq_decide.mpr (by omega)
  rw [intdblFlag, h320, h720]

/-- Of INTDBL's two width conditions the bound 320 is the stronger (41_scaler_resolve.md R166). -/
theorem intdblFlag_eq_true_iff_width :
    intdblFlag x = true ↔ x.w ≤ 320 ∧ x.smooth = false ∧ x.filterOn = false := by
  rw [intdblFlag_eq_true]
  constructor
  · rintro ⟨hw, hs, hf, _⟩
    exact ⟨hw, hs, hf⟩
  · rintro ⟨hw, hs, hf⟩
    exact ⟨hw, hs, hf, by omega⟩

end Modes

/-! ## The ranges of the scales -/

/-- A signed 16-bit value (10_state.md R45). -/
abbrev FitsSigned16 (v : Int) : Prop := -32768 ≤ v ∧ v ≤ 32767

theorem fitsSigned16_toInt (v : Half) : FitsSigned16 v.toInt := by
  have hlo := BitVec.le_toInt v
  have hhi := BitVec.toInt_lt (x := v)
  constructor <;> omega

/-- The ranges that the width of the RS_* registers gives the inputs (10_state.md R43, R45). -/
structure ResolveInputs.InRange (x : ResolveInputs) : Prop where
  w  : x.w ≤ 65535
  h  : x.h ≤ 65535
  ux : FitsSigned16 x.ux
  uy : FitsSigned16 x.uy
  sx : FitsSigned16 x.sx
  sy : FitsSigned16 x.sy

theorem resolveInputs_inRange (r : Regs) : (resolveInputs r).InRange where
  w := Nat.le_of_lt_succ r.rsWidth.isLt
  h := Nat.le_of_lt_succ r.rsHeight.isLt
  ux := fitsSigned16_toInt r.rsUserX
  uy := fitsSigned16_toInt r.rsUserY
  sx := fitsSigned16_toInt r.rsXShift
  sy := fitsSigned16_toInt r.rsYShift

theorem trunc32_natCast (n : Nat) : trunc32 n = BitVec.ofNat 32 n := BitVec.ofInt_natCast 32 n

theorem trunc32_toInt_of_fitsSigned16 {v : Int} (h : FitsSigned16 v) : (trunc32 v).toInt = v :=
  trunc32_toInt (by omega) (by omega)

section Ranges

variable {c : Config} {x : ResolveInputs}

theorem ycal_bounds (hc : c.Valid) (pal : Bool) : 1 ≤ ycal c pal ∧ ycal c pal ≤ 4095 := by
  obtain ⟨_, _, _, _, _, _, _, _, _, _, _, _, _, _, h60, h60', h50, h50'⟩ := hc
  cases pal
  · exact ⟨h60, h60'⟩
  · exact ⟨h50, h50'⟩

theorem xsCalOf_le (hc : c.Valid) (hwb wide : Bool) : xsCalOf c hwb wide ≤ 65535 := by
  obtain ⟨_, _, _, _, _, _, _, _, _, _, hsn, hsw, hhn, hhw, _⟩ := hc
  cases hwb <;> cases wide <;> assumption

theorem baseYScale_bounds (hx : x.InRange) : 0 ≤ baseYScale x ∧ baseYScale x ≤ 32767 := by
  have hh := hx.h
  unfold baseYScale
  omega

/-- The correction at most multiplies by YCAL's greatest value (41_scaler_resolve.md R163). -/
theorem originalYScale_bounds (hc : c.Valid) (hx : x.InRange) :
    0 ≤ originalYScale c x ∧ originalYScale c x ≤ 134180865 := by
  obtain ⟨hb, hb'⟩ := baseYScale_bounds hx
  obtain ⟨-, hhw⟩ := ycal_bounds hc x.hwPal
  unfold originalYScale
  split
  · have hprod : 0 ≤ baseYScale x * ycal c x.hwPal := by positivity
    constructor
    · exact Int.ediv_nonneg hprod (Int.natCast_nonneg _)
    · calc baseYScale x * ycal c x.hwPal / ycal c x.emuPal
          ≤ baseYScale x * ycal c x.hwPal := Int.ediv_le_self _ hprod
        _ ≤ 32767 * 4095 := by gcongr; exact_mod_cast hhw
  · omega

theorem originalXScale_bounds (hc : c.Valid) :
    0 ≤ originalXScale c x ∧ originalXScale c x ≤ 65535 := by
  have hcal := xsCalOf_le hc x.ovsH x.htimingWide
  unfold originalXScale
  split <;> omega

/-- W rescaled 320/256 is at most 81918 (41_scaler_resolve.md R163). -/
theorem manualDefaultXScale_bounds (hx : x.InRange) :
    0 ≤ manualDefaultXScale x ∧ manualDefaultXScale x ≤ 81918 := by
  have hw := hx.w
  unfold manualDefaultXScale
  split <;> omega

theorem manualXScale_bounds (hx : x.InRange) :
    -32768 ≤ manualXScale x ∧ manualXScale x ≤ 114685 := by
  obtain ⟨hu, hu'⟩ := hx.ux
  have hd := manualDefaultXScale_bounds hx
  unfold manualXScale
  split <;> omega

theorem manualYScale_bounds (hx : x.InRange) :
    -32768 ≤ manualYScale x ∧ manualYScale x ≤ 65534 := by
  obtain ⟨hu, hu'⟩ := hx.uy
  have hb := baseYScale_bounds hx
  unfold manualYScale
  split <;> omega

/-- The horizontal scale's range (41_scaler_resolve.md R163). -/
theorem xScale_bounds (hc : c.Valid) (hx : x.InRange) :
    -32768 ≤ xScale c x ∧ xScale c x ≤ 114685 := by
  cases hm : x.aspectOrig
  · rw [xScale_of_manual hm]
    exact manualXScale_bounds hx
  · rw [xScale_of_original hm]
    have := originalXScale_bounds (x := x) hc
    omega

theorem yScaleSingle_bounds (hc : c.Valid) (hx : x.InRange) :
    -32768 ≤ yScaleSingle c x ∧ yScaleSingle c x ≤ 134180865 := by
  cases hm : x.aspectOrig
  · rw [yScaleSingle_of_manual hm]
    have := manualYScale_bounds hx
    omega
  · rw [yScaleSingle_of_original hm]
    have := originalYScale_bounds hc hx
    omega

/-- The vertical scale's range (41_scaler_resolve.md R163). -/
theorem yScale_bounds (hc : c.Valid) (hx : x.InRange) :
    -268427266 ≤ yScale c x ∧ yScale c x ≤ 268427266 := by
  have := yScaleSingle_bounds hc hx
  unfold yScale
  split <;> omega

end Ranges

/-! ## The inputs without effect -/

section Inactive

variable {c : Config} {x x' : ResolveInputs}

/-- A resolution is its two scales before step 4, the doubling, the shifts and the flag. -/
theorem resolution_congr (hxs : xScale c x' = xScale c x)
    (hys : yScaleSingle c x' = yScaleSingle c x) (hdbl : x'.dblHeight = x.dblHeight)
    (hsx : x'.sx = x.sx) (hsy : x'.sy = x.sy) (hflag : intdblFlag x' = intdblFlag x) :
    resolution c x' = resolution c x := by
  simp only [resolution, yScale, hxs, hys, hdbl, hsx, hsy, hflag]

/-- Original mode reads neither the full-bleed override's inputs nor the user offsets
(41_scaler_resolve.md R170 (d), (f), (g)). -/
theorem resolution_original_ignores (h : x.aspectOrig = true) (ovsV bn : Bool) (ux uy : Int) :
    resolution c { x with ovsV := ovsV, borderlessNarrow := bn, ux := ux, uy := uy } =
      resolution c x :=
  resolution_congr (by rw [xScale_of_original h, xScale_of_original (by exact h)]; rfl)
    (by rw [yScaleSingle_of_original h, yScaleSingle_of_original (by exact h)]; rfl) rfl rfl rfl rfl

/-- OVS_V decides the full-bleed override alone (41_scaler_resolve.md R170 (f)). -/
theorem manualYScale_ignores_ovsV {ovsV : Bool} (hv : x.borderlessNarrow = true → ovsV = x.ovsV) :
    manualYScale { x with ovsV := ovsV } = manualYScale x := by
  cases hb : x.borderlessNarrow with
  | false => simp [manualYScale, baseYScale, hb]
  | true => simp [manualYScale, baseYScale, hb, hv hb]

/-- Manual mode reads neither the widescreen request nor the timing classes, and OVS_V only for the
full-bleed override (41_scaler_resolve.md R170 (e), (f)). -/
theorem resolution_manual_ignores (h : x.aspectOrig = false) (ws emu hw : Bool) {ovsV : Bool}
    (hv : x.borderlessNarrow = true → ovsV = x.ovsV) :
    resolution c { x with widescreen := ws, emuPal := emu, hwPal := hw, ovsV := ovsV } =
      resolution c x :=
  resolution_congr (by rw [xScale_of_manual h, xScale_of_manual (by exact h)]; rfl)
    (by
      rw [yScaleSingle_of_manual h, yScaleSingle_of_manual (by exact h),
        ← manualYScale_ignores_ovsV hv]
      rfl) rfl rfl rfl rfl

end Inactive

/-! ## The command -/

theorem exec_resolve_eq_next {s t : State} (hf : s.latch.fault = false) :
    exec .resolve s = .next t ↔ t = s.setSs (resolution s.cfg (resolveInputs s.regs)) := by
  rw [execResolve_of_live hf]
  exact ⟨fun h => by cases h; rfl, fun h => h ▸ rfl⟩

/-- SS after RESOLVE is the resolution of the registers. -/
theorem ss_of_exec_resolve {s t : State} (hf : s.latch.fault = false)
    (h : exec .resolve s = .next t) : t.ss = resolution s.cfg (resolveInputs s.regs) := by
  rw [(exec_resolve_eq_next hf).mp h, State.setSs_ss]

/-! ## The statements -/

/-- Settles O44: the four steps on the register bits, XS_CAL selected by two bits, the doubling as a
factor, and the flag over the integers. -/
theorem resolveLatchesResult : Obligations.ResolveLatchesResult := by
  intro s hf
  rw [execResolve_of_live hf, resolution, xScale, originalXScale, xsCalOf_eq_ite, yScale_eq_mul,
    intdblFlag_eq_int]
  rfl

/-- Settles O45: the scales lie in the ranges of R163, which trunc32 keeps. -/
theorem resolveNeverOverflows : Obligations.ResolveNeverOverflows := by
  intro s t hc hf h
  have hx := resolveInputs_inRange s.regs
  obtain ⟨hxlo, hxhi⟩ := xScale_bounds hc hx
  obtain ⟨hylo, hyhi⟩ := yScale_bounds hc hx
  rw [ss_of_exec_resolve hf h]
  exact ⟨trunc32_toInt (by omega) (by omega), trunc32_toInt (by omega) (by omega),
    trunc32_toInt_of_fitsSigned16 hx.sx, trunc32_toInt_of_fitsSigned16 hx.sy,
    hxlo, hxhi, hylo, hyhi⟩

/-- Settles O48: equal RS_* registers are equal inputs. -/
theorem resolveReadsItsRegisters : Obligations.ResolveReadsItsRegisters := by
  intro s s' t t' hcfg hf hf' hw hh hctrl hux huy hsx hsy h h'
  have hin : resolveInputs s.regs = resolveInputs s'.regs := by
    simp only [resolveInputs, hw, hh, hctrl, hux, huy, hsx, hsy]
  constructor
  · rw [ss_of_exec_resolve hf h, ss_of_exec_resolve hf' h', hcfg, hin]
  · rw [ss_of_exec_resolve hf h]
    exact (exec_resolve_eq_next hf).mp h

/-- Settles O49: the changed inputs are among those the mode ignores. -/
theorem resolverIgnoresInactiveInputs : Obligations.ResolverIgnoresInactiveInputs := by
  intro s t t' ctrl ux uy hf h
  refine ⟨fun hm hctrl h' => ?_, fun hm hctrl h' => ?_⟩
  all_goals rw [ss_of_exec_resolve hf h, ss_of_exec_resolve (by exact hf) h']
  · have hin : resolveInputs { s.regs with rsCtrl := ctrl, rsUserX := ux, rsUserY := uy } =
        { resolveInputs s.regs with
          ovsV := ctrl.getLsbD 2, borderlessNarrow := ctrl.getLsbD 10,
          ux := ux.toInt, uy := uy.toInt } := by
      simp [resolveInputs, hctrl, -BitVec.getLsbD_eq_getElem]
    rw [State.setRegs_regs, State.setRegs_cfg, hin]
    exact resolution_original_ignores hm _ _ _ _
  · have hin : resolveInputs { s.regs with rsCtrl := ctrl } =
        { resolveInputs s.regs with
          widescreen := ctrl.getLsbD 1, emuPal := ctrl.getLsbD 5, hwPal := ctrl.getLsbD 6,
          ovsV := ctrl.getLsbD 2 } := by
      simp [resolveInputs, hctrl, -BitVec.getLsbD_eq_getElem]
    rw [State.setRegs_regs, State.setRegs_cfg, hin]
    exact resolution_manual_ignores hm _ _ _ fun hb =>
      hctrl 2 (by decide) (by decide) (by decide) (.inr hb)

/-- Settles O46: the flag's conditions on the register bits. -/
theorem integerDoublingFlag : Obligations.IntegerDoublingFlag := by
  intro s t hf h
  rw [ss_of_exec_resolve hf h]
  exact ⟨intdblFlag_eq_true, intdblFlag_eq_true_iff_width⟩

/-- Settles O47: scenario 1 takes the uncorrected original scales, scenario 2 the full-bleed
override. -/
theorem resolverScenarios : Obligations.ResolverScenarios := by
  intro s hf
  refine ⟨fun hm hws hoh hwide hemu hhw hdbl _ => ⟨_, execResolve_of_live hf, ?_, ?_⟩,
    fun hm hb hov hoh => ?_⟩
  · have hx : xScale s.cfg (resolveInputs s.regs) = s.cfg.xsCal.simNarrow := by
      rw [xScale_of_original hm]
      simp [originalXScale, xsCalOf, resolveInputs, hws, hoh, hwide, -BitVec.getLsbD_eq_getElem]
    rw [State.setSs_ss, resolution, hx, trunc32_natCast]
  · have hy : yScale s.cfg (resolveInputs s.regs) = (s.regs.rsHeight.toNat / 2 : Nat) := by
      rw [yScale_of_single hdbl, yScaleSingle_of_original hm,
        originalYScale_of_sameClass (hemu.trans hhw.symm)]
      rfl
    rw [State.setSs_ss, resolution, hy, trunc32_natCast]
  · have hx : xScale s.cfg (resolveInputs s.regs) = 320 + s.regs.rsUserX.toInt := by
      rw [xScale_of_manual hm, manualXScale_of_fullBleed hb hoh]
      rfl
    have hy : yScale s.cfg (resolveInputs s.regs) = (112 + s.regs.rsUserY.toInt) *
        (if s.regs.rsCtrl.getLsbD 7 then 2 else 1) := by
      rw [yScale_eq_mul, yScaleSingle_of_manual hm, manualYScale_of_fullBleed hb hov]
      rfl
    refine ⟨_, execResolve_of_live hf, ?_⟩
    rw [State.setSs_ss, resolution, hx, hy]
    refine ⟨rfl, rfl, fun hux huy hdbl => ?_⟩
    rw [hux, huy, hdbl]
    exact ⟨rfl, rfl⟩

end Sys2Proof.Machine

/-! SUPPORT. FINIT and FFREE: the effective preset, what the decode table depends on, what each
command answers, and the statements of 42_filter_init.md that follow from them. -/

namespace Sys2Proof.Machine

/-! ## The effective preset and the table -/

/-- The presets that build CUSTOM's table (42_filter_init.md R185). -/
theorem effectivePreset_eq_custom {q : KindParams} {p : Preset} :
    effectivePreset q p = .custom ↔ p = .custom ∨ (p = .rgb ∧ q.rgbFallthrough = true) := by
  unfold effectivePreset
  split_ifs with h
  · exact iff_of_true rfl (.inr h)
  · exact (or_iff_left h).symm

/-- Every other preset builds its own table. -/
theorem effectivePreset_of_ne_custom {q : KindParams} {p : Preset}
    (h : effectivePreset q p ≠ .custom) : effectivePreset q p = p :=
  if_neg fun hfall => h (effectivePreset_eq_custom.mpr (.inr hfall))

/-- LutGen at a command's preset: CUSTOM's function of the knobs, or the preset's own
(42_filter_init.md R185, R186). -/
theorem lutGen_effectivePreset (f : FilterModel) (q : KindParams) (k : Kind) (p : Preset)
    (kn : Knobs Int) (v : Nat) :
    lutGen f k (effectivePreset q p) kn v =
      if p = .custom ∨ (p = .rgb ∧ q.rgbFallthrough = true) then f.lutCustom k kn v
      else f.lutNamed k p v := by
  by_cases h : effectivePreset q p = .custom
  · rw [if_pos (effectivePreset_eq_custom.mp h), lutGen, if_pos h]
  · rw [if_neg (mt effectivePreset_eq_custom.mpr h), lutGen, if_neg h,
      effectivePreset_of_ne_custom h]

/-- The table reads the knobs for CUSTOM alone (42_filter_init.md R186). -/
theorem buildLut_congr (f : FilterModel) (q : KindParams) (k : Kind) {eff : Preset}
    {kn kn' : Knobs Int} (h : eff = .custom → kn = kn') :
    buildLut f q k eff kn = buildLut f q k eff kn' := by
  by_cases heff : eff = .custom
  · rw [h heff]
  · have hgen : lutGen f k eff kn = lutGen f k eff kn' := by
      funext v
      rw [lutGen, lutGen, if_neg heff, if_neg heff]
    rw [buildLut, buildLut, hgen]

/-- Under RGB_FALLTHROUGH, RGB builds CUSTOM's context but for the preset it records
(42_filter_init.md R185). -/
theorem builtContext_rgb_of_fallthrough (f : FilterModel) {k : Kind} {s : State}
    (h : (s.cfg.kind k).rgbFallthrough = true) :
    builtContext f k .rgb s = { builtContext f k .custom s with preset := .rgb } := by
  have hrgb : effectivePreset (s.cfg.kind k) .rgb = .custom :=
    effectivePreset_eq_custom.mpr (.inr ⟨rfl, h⟩)
  have hcustom : effectivePreset (s.cfg.kind k) .custom = .custom :=
    effectivePreset_eq_custom.mpr (.inl rfl)
  simp only [builtContext, hrgb, hcustom]

/-! ## What the commands answer -/

/-- FINIT with a preset other than OFF puts the built context in place (42_filter_init.md R181). -/
theorem exec_finit_build {s : State} (hf : s.latch.fault = false) (k : Kind) {p : Preset}
    (hp : p ≠ .off) :
    exec (.finit k p) s = .next (s.setCtx k (some (builtContext Config.filterModel k p s))) := by
  rw [exec_of_live hf, effect, finitEffect_build _ k hp]

/-- FFREE releases the context (42_filter_init.md R190). -/
theorem exec_ffree_of_live {s : State} (hf : s.latch.fault = false) (k : Kind) :
    exec (.ffree k) s = .next (s.setCtx k none) :=
  exec_of_live hf (.ffree k)

/-- FINIT OFF is FFREE, in a frozen block too (42_filter_init.md R182). -/
theorem exec_finit_off (k : Kind) (s : State) : exec (.finit k .off) s = exec (.ffree k) s := by
  rw [exec_eq_unlessFrozen, exec_eq_unlessFrozen, effect, finitEffect_off, effect, releaseCtx]

/-- FINIT and FFREE put a context in place and do nothing else; a frozen block keeps its own. -/
theorem exec_eq_setCtx_of_replaces {i : Instr} {k : Kind}
    (hi : i = .ffree k ∨ ∃ p, i = .finit k p) {s t : State} (h : exec i s = .next t) : ∃ c, t = s.setCtx k c := by
  obtain ⟨_, rfl⟩ | ⟨_, rfl⟩ := exec_eq_next.mp h
  · exact ⟨t.ctx k, (State.setCtx_same t k).symm⟩
  · obtain rfl | ⟨p, rfl⟩ := hi
    · exact ⟨none, rfl⟩
    · exact finitEffect_eq_setCtx Config.filterModel k p s

/-! ## Repeated commands -/

/-- A command whose effect changes nothing in a state answers that state, frozen or not. -/
theorem exec_of_effect_eq {i : Instr} {s : State} (h : effect i s = s) : exec i s = .next s := by
  rw [exec_eq_next, h]
  cases s.latch.fault
  · exact .inr ⟨rfl, rfl⟩
  · exact .inl ⟨rfl, rfl⟩

/-- The second of two equal FINITs reads the knobs and the configuration of the first
(42_filter_init.md R192 (d)). -/
theorem effect_finit_idem (k : Kind) (p : Preset) (s : State) :
    effect (.finit k p) (effect (.finit k p) s) = effect (.finit k p) s := by
  obtain ⟨c, hc⟩ : ∃ c, effect (.finit k p) s = s.setCtx k c := finitEffect_eq_setCtx _ k p s
  calc effect (.finit k p) (effect (.finit k p) s)
      = effect (.finit k p) (s.setCtx k c) := by rw [hc]
    _ = effect (.finit k p) s := effect_setCtx_of_replaces (.inr ⟨p, rfl⟩) s c

/-- RESOLVE reads nothing that RESOLVE writes (41_scaler_resolve.md R168). -/
theorem effect_resolve_idem (s : State) :
    effect .resolve (effect .resolve s) = effect .resolve s := rfl

/-! ## The statements -/

/-- Settles O22: FINIT puts the built context in place, whose table is LutGen at the effective
preset. -/
theorem finitBuildsContext : Obligations.FinitBuildsContext := by
  intro k p s hf hp
  refine ⟨builtContext Config.filterModel k p s, exec_finit_build hf k hp, rfl, rfl,
    buildLut_length _ _ _ _ _, fun v hv => ?_⟩
  exact (lutAt_buildLut _ _ _ _ _ hv).trans (lutGen_effectivePreset _ _ _ _ _ _)

/-- Settles O25: both commands put a context in place, whatever context stood there. -/
theorem finitAndFfreeFrame : Obligations.FinitAndFfreeFrame := by
  intro k i s t hi h
  obtain ⟨_, _, hwhole⟩ := contextsAreIndependent i k s t h
  obtain ⟨c, rfl⟩ := exec_eq_setCtx_of_replaces hi h
  refine ⟨fun k' hk => State.setCtx_ctx_ne s k k' c hk, ?_, ?_, ?_, ?_, ?_, ?_, ?_, ?_, ?_,
    fun hf => hwhole hf hi⟩
  all_goals simp

/-- Settles O26: the table is that of the effective preset, which reads the knobs for CUSTOM
alone. -/
theorem tableDependsOnItsArguments : Obligations.TableDependsOnItsArguments := by
  intro k p p' s s' t t' hcfg hf hf' hp hp' heff hknobs h h'
  cases (exec_finit_build hf k hp).symm.trans h
  cases (exec_finit_build hf' k hp').symm.trans h'
  simp only [State.setCtx_ctx_self, Option.map_some, builtContext]
  rw [buildLut_congr _ _ _ hknobs, heff, hcfg]

/-- Settles O27: FINIT CUSTOM's context with the preset RGB is FINIT RGB's. -/
theorem rgbFallsThroughToCustom : Obligations.RgbFallsThroughToCustom := by
  intro k s t u hf hfall ht hu
  cases (exec_finit_build hf k (p := .rgb) nofun).symm.trans ht
  cases (exec_finit_build hf k (p := .custom) nofun).symm.trans hu
  refine ⟨_, State.setCtx_ctx_self _ _ _, rfl, ?_⟩
  rw [State.setCtx_setCtx, builtContext_rgb_of_fallthrough _ hfall]

/-- Settles O28: a frozen block keeps its state, and in a live one both effects are idempotent. -/
theorem repeatingChangesNothing : Obligations.RepeatingChangesNothing := by
  intro s t i hi h
  obtain ⟨hf, rfl⟩ | ⟨_, rfl⟩ := exec_eq_next.mp h
  · exact exec_of_frozen hf i
  · obtain rfl | ⟨k, p, rfl⟩ := hi
    · exact exec_of_effect_eq (effect_resolve_idem s)
    · exact exec_of_effect_eq (effect_finit_idem k p s)

/-- Settles O23: FINIT OFF is FFREE, which leaves no context. -/
theorem finitOffReleases : Obligations.FinitOffReleases :=
  fun k s => ⟨exec_finit_off k s, fun hf =>
    ⟨_, (exec_finit_off k s).trans (exec_ffree_of_live hf k), State.setCtx_ctx_self s k none⟩⟩

/-- Settles O24: STATUS shows the released context as 0, and releasing none is storing what is
there. -/
theorem ffreeReleases : Obligations.FfreeReleases := by
  intro k s hf
  refine ⟨_, exec_ffree_of_live hf k, rfl, ?_, fun hnone => ?_⟩
  · obtain ⟨_, hlr, hhr, _⟩ := bits_statusWord (s.setCtx k none)
    cases k
    · exact hlr
    · exact hhr
  · rw [← hnone, State.setCtx_same]

end Sys2Proof.Machine

/-! SUPPORT. OUTW and BLIT: the widths, the stream, the windows and their order, what a BLIT answers
in each case, and the statements of 43_filter_blit.md that follow from them. -/

namespace Sys2Proof.Machine

open Sys2Proof.Statement

/-! ## The constraints of a kind's parameters (00_scope.md R7) -/

section Params

variable {q : KindParams}

theorem KindParams.inChunk_le_sixteen (h : q.Valid) : q.inChunk ≤ 16 := by
  obtain ⟨_, hin, hout, _⟩ := h
  exact hin.trans hout

theorem KindParams.inChunk_le_taps (h : q.Valid) : q.inChunk ≤ q.taps := by
  obtain ⟨_, _, _, htaps, _⟩ := h
  exact htaps

theorem KindParams.lead_length (h : q.Valid) : q.lead.length = q.outChunk := by
  obtain ⟨_, _, _, _, hlen, _⟩ := h
  exact hlen

end Params

/-! ## Widths -/

/-- A width written as full chunks and fewer extra samples than a chunk has those chunks and those
extras (43_filter_blit.md R201). -/
theorem chunks_extras_unique {q : KindParams} {c e : Nat} (he : e < q.inChunk) :
    chunks q (c * q.inChunk + e) = c ∧ extras q (c * q.inChunk + e) = e :=
  (Nat.div_mod_unique (Nat.zero_lt_of_lt he)).mpr ⟨by rw [Nat.mul_comm, Nat.add_comm], he⟩

theorem outputWidth_of_chunks {q : KindParams} {w c : Nat} (h : chunks q w = c) :
    outputWidth q w = (c + 1) * q.outChunk := by
  rw [outputWidth, h]

/-- The width domain, for a command's `w` (43_filter_blit.md R204). -/
theorem widthValid_eq_true {q : KindParams} {w : Nat} :
    widthValid q w = true ↔ q.inChunk ≤ w ∧ w ≤ 2047 := decide_eq_true_iff

/-- Bits 15:0 of OUTW's word are OW, not truncated (43_filter_blit.md R203). -/
theorem bits_outwWord_low {q : KindParams} (hq : q.Valid) {w : Nat} (hw : w ≤ 2047) :
    bits (outwWord q w) 15 0 = outputWidth q w := by
  have hOW := KindParams.outputWidth_le hq hw
  unfold bits
  rw [outwWord_toNat]
  omega

/-- Bits 31:16 of OUTW's word are RW, not truncated (43_filter_blit.md R203). -/
theorem bits_outwWord_high {q : KindParams} (hq : q.Valid) {w : Nat} (hw : w ≤ 2047) :
    bits (outwWord q w) 31 16 = roundedWidth q w := by
  rw [outwWord_ok hq hw, bits_outwWord_low hq hw, roundedWidth]

/-! ## The stream -/

/-- Source sample i stands at stream position i - r (43_filter_blit.md R205). -/
theorem stream_of_sample {q : KindParams} (b : LineBuffer) {w i : Nat} (hi : i < w) :
    stream q b w ((i : Int) - extras q w) = srcRead q.sampleBits b i := by
  have hce := chunks_extras q w
  unfold stream
  rw [if_neg (by omega), if_pos (by omega), Int.sub_add_cancel, Int.toNat_natCast]

/-- Before the row and after its last full chunk the stream is the border code
(43_filter_blit.md R205). -/
theorem stream_of_border {q : KindParams} (b : LineBuffer) {w : Nat} {n : Int}
    (hn : n < -(extras q w : Int) ∨ (chunks q w * q.inChunk : Nat) ≤ n) : stream q b w n = 0 := by
  unfold stream
  split_ifs
  · rfl
  · omega
  · rfl

/-- Every position of the row is a source sample's (43_filter_blit.md R205). -/
theorem exists_sample_at {q : KindParams} {w : Nat} {n : Int} (hlo : -(extras q w : Int) ≤ n)
    (hhi : n < (chunks q w * q.inChunk : Nat)) : ∃ i < w, n = (i : Int) - extras q w := by
  have hce := chunks_extras q w
  exact ⟨(n + extras q w).toNat, by omega, by omega⟩

/-- In a row whose samples all equal v, each position of the row, and for v = 0 every position, has
the code v (43_filter_blit.md R221). -/
theorem stream_of_solid {q : KindParams} {b : LineBuffer} {w v : Nat}
    (hrow : ∀ i < w, srcRead q.sampleBits b i = v) {n : Int}
    (hn : (-(extras q w : Int) ≤ n ∧ n < (chunks q w * q.inChunk : Nat)) ∨ v = 0) :
    stream q b w n = v := by
  by_cases hin : -(extras q w : Int) ≤ n ∧ n < (chunks q w * q.inChunk : Nat)
  · obtain ⟨i, hi, rfl⟩ := exists_sample_at hin.1 hin.2
    rw [stream_of_sample b hi, hrow i hi]
  · rw [hn.resolve_left hin]
    exact stream_of_border b (by omega)

/-! ## Windows -/

/-- A pixel depends on the row's entries of the line buffer alone (43_filter_blit.md R212, R217). -/
theorem pixel_congr {q : KindParams} {b b' : LineBuffer} {w : Nat}
    (h : ∀ i < w, Cells.get? b i = Cells.get? b' i) (f : FilterModel) (k : Kind) (lut : List Entry)
    (line j : Nat) : pixel f q k lut b w line j = pixel f q k lut b' w line j := by
  unfold pixel window
  rw [funext (stream_congr h)]

/-- A window whose positions all have the code v holds that code's entry TAPS(k) times
(43_filter_blit.md R210). -/
theorem window_of_constant {q : KindParams} {b : LineBuffer} {w j v : Nat} (lut : List Entry)
    (h : ∀ n : Int, (newest q j : Int) - q.taps + 1 ≤ n → n ≤ newest q j → stream q b w n = v) :
    window q lut b w j = List.replicate q.taps (lutAt lut v) := by
  refine List.eq_replicate_iff.mpr ⟨by simp [window], fun e he => ?_⟩
  obtain ⟨t, ht, rfl⟩ := List.mem_map.mp he
  have htaps := List.mem_range.mp ht
  rw [h _ (by omega) (by omega)]

/-- nn(j) stays below (C+1)*IN(k) for j < OW (43_filter_blit.md R211). -/
theorem newest_lt {q : KindParams} (hq : q.Valid) {w j : Nat} (hj : j < outputWidth q w) :
    newest q j < (chunks q w + 1) * q.inChunk := by
  have hchunk : j / q.outChunk < chunks q w + 1 :=
    Nat.div_lt_of_lt_mul (by rwa [Nat.mul_comm])
  calc newest q j < j / q.outChunk * q.inChunk + q.inChunk :=
        Nat.add_lt_add_left (KindParams.lead_lt hq (KindParams.phase_lt hq j)) _
    _ = (j / q.outChunk + 1) * q.inChunk := (Nat.succ_mul _ _).symm
    _ ≤ (chunks q w + 1) * q.inChunk := Nat.mul_le_mul_right _ hchunk

/-- nn takes every value below (C+1)*IN(k) on the pixels j < OW (43_filter_blit.md R211). -/
theorem exists_newest_eq {q : KindParams} (hq : q.Valid) {w n : Nat}
    (hn : n < (chunks q w + 1) * q.inChunk) : ∃ j < outputWidth q w, newest q j = n := by
  have hin := KindParams.inChunk_pos hq
  obtain ⟨p, hp, hlead⟩ := KindParams.lead_onto hq (Nat.mod_lt n hin)
  have hchunk : n / q.inChunk + 1 ≤ chunks q w + 1 :=
    Nat.div_lt_of_lt_mul (by rwa [Nat.mul_comm])
  refine ⟨n / q.inChunk * q.outChunk + p, ?_, ?_⟩
  · calc n / q.inChunk * q.outChunk + p < n / q.inChunk * q.outChunk + q.outChunk :=
          Nat.add_lt_add_left hp _
      _ = (n / q.inChunk + 1) * q.outChunk := (Nat.succ_mul _ _).symm
      _ ≤ outputWidth q w := Nat.mul_le_mul_right _ hchunk
  · rw [newest_of_chunk hq _ hp, hlead, Nat.mul_comm, Nat.div_add_mod]

/-- A later newest position is a later pixel's (43_filter_blit.md R211). -/
theorem lt_of_newest_lt {q : KindParams} (hq : q.Valid) {j j' : Nat}
    (h : newest q j < newest q j') : j < j' := by
  by_contra hle
  have := newest_mono hq (Nat.le_of_not_lt hle)
  omega

/-- Pixel j is one of J(i): it is produced and its window holds source sample i
(43_filter_blit.md R220). -/
def SampleReaches (q : KindParams) (w i j : Nat) : Prop :=
  j < outputWidth q w ∧ (i : Int) - extras q w ≤ newest q j ∧
    (newest q j : Int) ≤ (i : Int) - extras q w + q.taps - 1

section Order

variable {q : KindParams} {w i i' : Nat}

/-- J(i) is not empty: a pixel's newest position is the sample's own, or 0 for an extra sample,
which is then fewer than IN(k) <= TAPS(k) positions old (43_filter_blit.md R220). -/
theorem exists_sampleReaches (hq : q.Valid) (hi : i < w) : ∃ j, SampleReaches q w i j := by
  have hce := chunks_extras q w
  have hextras := KindParams.extras_lt hq w
  have htaps := KindParams.inChunk_le_taps hq
  obtain ⟨j, hj, hnn⟩ := exists_newest_eq hq (w := w) (n := i - extras q w) (by
    rw [Nat.succ_mul]
    omega)
  exact ⟨j, hj, by omega, by omega⟩

/-- J(i) is a run of consecutive pixels (43_filter_blit.md R220). -/
theorem SampleReaches.between (hq : q.Valid) {j j' j'' : Nat} (h : SampleReaches q w i j)
    (h'' : SampleReaches q w i j'') (hle : j ≤ j') (hle' : j' ≤ j'') : SampleReaches q w i j' := by
  obtain ⟨_, hlo, _⟩ := h
  obtain ⟨hj'', _, hhi⟩ := h''
  have h1 := newest_mono hq hle
  have h2 := newest_mono hq hle'
  exact ⟨by omega, by omega, by omega⟩

/-- The first pixel of an earlier sample's run is no later (43_filter_blit.md R220). -/
theorem SampleReaches.exists_le_of_lt (hq : q.Valid) (hlt : i < i') (hi' : i' < w) {j' : Nat}
    (h : SampleReaches q w i' j') : ∃ j ≤ j', SampleReaches q w i j := by
  obtain ⟨hj', hlo, _⟩ := h
  by_cases hin : (newest q j' : Int) ≤ (i : Int) - extras q w + q.taps - 1
  · exact ⟨j', Nat.le_refl _, hj', by omega, hin⟩
  · obtain ⟨j, hreach⟩ := exists_sampleReaches hq (hlt.trans hi')
    have ⟨_, _, hhi⟩ := hreach
    exact ⟨j, (lt_of_newest_lt hq (by omega)).le, hreach⟩

/-- The last pixel of a later sample's run is no earlier (43_filter_blit.md R220). -/
theorem SampleReaches.exists_ge_of_lt (hq : q.Valid) (hlt : i < i') (hi' : i' < w) {j : Nat}
    (h : SampleReaches q w i j) : ∃ j' ≥ j, SampleReaches q w i' j' := by
  obtain ⟨hj, _, hhi⟩ := h
  by_cases hin : (i' : Int) - extras q w ≤ newest q j
  · exact ⟨j, Nat.le_refl _, hj, hin, by omega⟩
  · obtain ⟨j', hreach⟩ := exists_sampleReaches hq hi'
    have ⟨_, hlo, _⟩ := hreach
    exact ⟨j', (lt_of_newest_lt hq (by omega)).le, hreach⟩

end Order

/-! ## Texels that do not overlap -/

/-- Where a byte of one texel lies in another texel, the two texels have one address
(20_memory.md R90). -/
theorem texelAddr_eq_of_overlap {c : Config} {r : Regs} {x y x' y' b : Nat} (hb : b < c.texelBytes)
    (hlo : texelAddr c r x' y' ≤ texelAddr c r x y + b)
    (hhi : texelAddr c r x y + b < texelAddr c r x' y' + c.texelBytes) :
    texelAddr c r x y = texelAddr c r x' y' := by
  obtain ⟨b', hb'⟩ := Nat.exists_eq_add_of_le hlo
  rw [hb'] at hhi
  rw [texelAddr_eq, texelAddr_eq] at hb' ⊢
  rw [Nat.add_assoc, Nat.add_assoc] at hb'
  rw [(rowMajor_inj hb (Nat.lt_of_add_lt_add_left hhi) (Nat.add_left_cancel hb')).2]

/-! ## What OUTW and BLIT answer -/

theorem exec_outw_of_valid {k : Kind} {w : Nat} {s : State} (hf : s.latch.fault = false)
    (hw : widthValid (s.cfg.kind k) w = true) :
    exec (.outw k w) s = .next (s.setOutwRes (outwWord (s.cfg.kind k) w)) := by
  rw [exec_of_live hf, effect, outwEffect, if_pos hw]

theorem exec_outw_of_invalid {k : Kind} {w : Nat} {s : State} (hf : s.latch.fault = false)
    (hw : ¬ widthValid (s.cfg.kind k) w = true) :
    exec (.outw k w) s =
      .next (s.setLatch { fault := true, fcode := 4, fcmd := encode (.outw k w) }) := by
  rw [exec_of_live hf, effect, outwEffect, if_neg hw, raise_of_live hf]
  rfl

section Blit

variable {k : Kind} {w line : Nat} {s t : State}

/-- The checks of a BLIT as the table of 43_filter_blit.md R209 writes them, in its order. -/
theorem blitCheck_eq_ite (k : Kind) (w line : Nat) (s : State) : blitCheck k w line s =
    if s.ctx k = none then some .noCtx
    else if w < (s.cfg.kind k).inChunk ∨ 2047 < w then some .width
    else if s.regs.dstLines.toNat ≤ line then some .line
    else if s.regs.dstPitch = 0 then some .pitch
    else if s.regs.dstBase.toNat % (16 * s.cfg.texelBytes) ≠ 0 then some .align
    else if s.cfg.dstMemBytes ≤
        texelAddr s.cfg s.regs (storedWidth (s.cfg.kind k) s.regs w - 1) line +
          s.cfg.texelBytes - 1 then some .dstRange
    else if ∃ i < w, srcWritten s.src i = false then some .srcUninit
    else none := by
  simp [blitCheck, widthValid, tileBytes, ← BitVec.toNat_inj]

/-- The conditions of `BlitReady` are those of the checks (43_filter_blit.md R209). -/
theorem blitReady_iff : BlitReady k w line s ↔ blitCheck k w line s = none := by
  rw [blitCheck_eq_none, widthValid_eq_true, and_assoc]
  rfl

/-- A BLIT that fails a check latches its fault and does nothing else (43_filter_blit.md R209). -/
theorem exec_blit_of_fault (hf : s.latch.fault = false) {cause : FaultCause}
    (hc : blitCheck k w line s = some cause) :
    exec (.blit k w line) s = .next
      (s.setLatch { fault := true, fcode := cause.code, fcmd := encode (.blit k w line) }) := by
  rw [exec_of_live hf, effect, blitEffect, hc, ← raise_of_live hf]

/-- A BLIT that passes its checks stores its row and sets CLIPPED (43_filter_blit.md R208). -/
theorem exec_blit_of_pass (hf : s.latch.fault = false) (hc : blitCheck k w line s = none) :
    exec (.blit k w line) s = .next
      (s.setRow (blitMemory Config.filterModel k w line s)
        (clippedFlag (s.cfg.kind k) s.regs w)) := by
  rw [exec_of_live hf, effect, blitEffect, hc]

/-- What a BLIT can answer: the frozen state itself, a latched fault, or its row stored. -/
theorem exec_blit_cases (h : exec (.blit k w line) s = .next t) :
    (s.latch.fault = true ∧ t = s) ∨
    (s.latch.fault = false ∧ ∃ l : FaultLatch, l.fault = true ∧ t = s.setLatch l) ∨
    (s.latch.fault = false ∧ t = s.setRow (blitMemory Config.filterModel k w line s)
      (clippedFlag (s.cfg.kind k) s.regs w)) := by
  cases hf : s.latch.fault with
  | true =>
    cases (exec_of_frozen hf _).symm.trans h
    exact .inl ⟨rfl, rfl⟩
  | false =>
    cases hc : blitCheck k w line s with
    | some cause =>
      cases (exec_blit_of_fault hf hc).symm.trans h
      exact .inr (.inl ⟨rfl, _, rfl, rfl⟩)
    | none =>
      cases (exec_blit_of_pass hf hc).symm.trans h
      exact .inr (.inr ⟨rfl, rfl⟩)

/-- A BLIT after which no fault is latched has stored its row. -/
theorem exec_blit_of_live (h : exec (.blit k w line) s = .next t) (ht : t.latch.fault = false) :
    t = s.setRow (blitMemory Config.filterModel k w line s)
      (clippedFlag (s.cfg.kind k) s.regs w) := by
  obtain ⟨hf, rfl⟩ | ⟨_, l, hl, rfl⟩ | ⟨_, rfl⟩ := exec_blit_cases h
  · simp [hf] at ht
  · simp [hl] at ht
  · rfl

/-- A BLIT keeps every byte outside the texels it may store (43_filter_blit.md R208). -/
theorem exec_blit_outside (h : exec (.blit k w line) s = .next t) {a : Nat}
    (ha : ∀ j < storedWidth (s.cfg.kind k) s.regs w,
      ¬(texelAddr s.cfg s.regs j line ≤ a ∧
        a < texelAddr s.cfg s.regs j line + s.cfg.texelBytes)) :
    Memory.read? t.dst a = Memory.read? s.dst a := by
  obtain ⟨_, rfl⟩ | ⟨_, _, _, rfl⟩ | ⟨_, rfl⟩ := exec_blit_cases h
  · rfl
  · rfl
  · exact blitMemory_outside _ k w line s a ha

theorem ctxLut_of_some {x : FilterContext} (h : s.ctx k = some x) : ctxLut s k = x.lut := by
  simp [ctxLut, h]

theorem clippedFlag_eq_true {q : KindParams} {r : Regs} :
    clippedFlag q r w = true ↔ 4 * r.dstPitch.toNat < outputWidth q w := decide_eq_true_iff

end Blit

/-! ## The statements -/

/-- Settles O29: OW <= 32768 fits its half of the word, and a reserved bit makes the word
illegal. -/
theorem outwWritesBothWidths : Obligations.OutwWritesBothWidths := by
  refine ⟨fun k w s hc hf hw => ⟨fun hin => ?_, fun hlt => ?_⟩, fun s c rest h hop hres => ?_⟩
  · have hq := Config.kind_valid hc k
    exact ⟨_, exec_outw_of_valid hf (widthValid_eq_true.mpr ⟨hin, hw⟩), rfl,
      bits_outwWord_low hq hw, bits_outwWord_high hq hw⟩
  · exact exec_outw_of_invalid hf fun hvalid =>
      Nat.not_le.mpr hlt (widthValid_eq_true.mp hvalid).1
  · exact illegalWordRaisesIllCmd s c rest h (by simp [IllegalWord, hop, hres])

/-- Settles O31: the pixels stored are those of the stream, whose row is written, so that it has no
free value. -/
theorem blitStoresRow : Obligations.BlitStoresRow := by
  intro k w line s _ hf hready
  have ⟨_, _, _, _, _, _, _, hwritten⟩ := hready
  refine ⟨_, exec_blit_of_pass hf (blitReady_iff.mp hready), rfl, rfl,
    fun x hx j hj b hb => ⟨_, blitMemory_inside _ k w line s hj hb, ?_⟩,
    fun a ha => blitMemory_withDst_outside _ k w line s s.dst ha⟩
  rw [byteOf_toNat, ctxLut_of_some hx, pixel, window, funext (stream_of_written hwritten)]
  rfl

/-- Settles O32, by the three answers of a BLIT. -/
theorem blitFrame : Obligations.BlitFrame := by
  intro k w line s t h
  obtain ⟨hf, rfl⟩ | ⟨hf, l, hl, rfl⟩ | ⟨hf, rfl⟩ := exec_blit_cases h
  · simp [hf]
  · simp [hl]
  · simpa [hf] using fun a => blitMemory_outside Config.filterModel k w line s a

/-- Settles O33: each check is reached when those before it pass, and its fault is then latched. -/
theorem blitChecksInOrder : Obligations.BlitChecksInOrder := by
  refine ⟨fun s c rest h hop hres => ?_, fun c r _ _ y h => texelAddr_row_mono c r y h, ?_⟩
  · exact illegalWordRaisesIllCmd s c rest h (by simp [IllegalWord, hop, hres])
  intro k w line s hf hw _
  have hcheck := blitCheck_eq_ite k w line s
  refine ⟨fun hnone => exec_blit_of_fault hf (hcheck.trans (if_pos hnone)), fun hctx => ?_⟩
  rw [if_neg hctx] at hcheck
  refine ⟨fun hlt => exec_blit_of_fault hf (hcheck.trans (if_pos (.inl hlt))), fun hin => ?_⟩
  rw [if_neg (by omega)] at hcheck
  refine ⟨fun hlines => exec_blit_of_fault hf (hcheck.trans (if_pos hlines)), fun hline => ?_⟩
  rw [if_neg (Nat.not_le.mpr hline)] at hcheck
  refine ⟨fun hzero => exec_blit_of_fault hf (hcheck.trans (if_pos hzero)), fun hpitch => ?_⟩
  rw [if_neg hpitch] at hcheck
  refine ⟨fun hodd => exec_blit_of_fault hf (hcheck.trans (if_pos hodd)), fun halign => ?_⟩
  rw [if_neg (not_not.mpr halign)] at hcheck
  refine ⟨fun hbeyond => exec_blit_of_fault hf (hcheck.trans (if_pos hbeyond)),
    fun hrange hsrc => ?_⟩
  have hpass := hcheck.trans (if_neg (Nat.not_le.mpr hrange))
  exact exec_blit_of_fault hf (hpass.trans (if_pos hsrc))

/-- Settles O34: only a BLIT that stores its row sets CLIPPED. -/
theorem clippedTellsDroppedPixels : Obligations.ClippedTellsDroppedPixels := by
  intro k w line s t hf h
  refine ⟨fun ht => ?_, fun ht => ?_⟩
  · rw [exec_blit_of_live h ht]
    exact clippedFlag_eq_true
  · obtain ⟨_, _, _, _, _, _, _, _, hfault, _⟩ := blitFrame k w line s t h
    obtain ⟨hclipped, _⟩ := hfault ht
    exact hclipped

/-- Settles O35: inside the pitch a byte of another row is in no stored texel. -/
theorem blitKeepsOtherRows : Obligations.BlitKeepsOtherRows := by
  intro k w line x y b s t h hy hx hb
  refine exec_blit_outside h fun j hj ⟨hlo, hhi⟩ => hy ?_
  have hpitch : j < 4 * s.regs.dstPitch.toNat := hj.trans_le (Nat.min_le_right _ _)
  exact (texelAddr_inj (Nat.zero_lt_of_lt hb) hx hpitch (texelAddr_eq_of_overlap hb hlo hhi)).2

/-- Settles O39, clause by clause. -/
theorem streamIsTheRow : Obligations.StreamIsTheRow := fun _ b _ _ =>
  ⟨fun _ hi => stream_of_sample b hi, fun _ _ hv => srcRead_of_get? hv _,
    fun _ hn => stream_of_border b hn, fun _ hlo hhi => exists_sample_at hlo hhi⟩

/-- Settles O40: the bytes are those of pixels whose every argument agrees. -/
theorem blitDependsOnItsInputs : Obligations.BlitDependsOnItsInputs := by
  intro k w line s s' t t' hcfg _ hlut hbase hpitch _ hsrc h h' ht ht' j hj b hb
  have haddr : texelAddr s.cfg s.regs j line = texelAddr s'.cfg s'.regs j line := by
    simp only [texelAddr, hcfg, hbase, hpitch]
  have hj' : j < storedWidth (s'.cfg.kind k) s'.regs w := by
    rwa [storedWidth, hcfg, hpitch] at hj
  have hb' : b < s'.cfg.texelBytes := hcfg ▸ hb
  rw [exec_blit_of_live h ht, exec_blit_of_live h' ht', State.setRow_dst, State.setRow_dst,
    blitMemory_inside _ k w line s hj hb, blitMemory_inside _ k w line s' hj' hb', pixel_congr hsrc,
    hlut, hcfg]

/-- Settles O41: LEAD climbs from 0 to IN(k)-1 in each chunk. -/
theorem newestPositionAdvances : Obligations.NewestPositionAdvances := by
  intro q w hq
  refine ⟨fun c p lead hlead => ?_, fun _ _ h => newest_mono hq h, fun _ hj => newest_lt hq hj,
    fun _ hn => exists_newest_eq hq hn⟩
  obtain ⟨hp, _⟩ := List.getElem?_eq_some_iff.mp hlead
  rw [newest_of_chunk hq c (KindParams.lead_length hq ▸ hp), List.getD_eq_getElem?_getD, hlead]
  rfl

/-- Settles O42, by the order of the runs J(i). -/
theorem samplesKeepOrder : Obligations.SamplesKeepOrder := fun _ _ hq =>
  ⟨fun _ hi => exists_sampleReaches hq hi,
    fun _ _ _ _ _ h h'' hle hle' => SampleReaches.between hq h h'' hle hle',
    fun _ _ hlt hi' => ⟨fun _ h => SampleReaches.exists_le_of_lt hq hlt hi' h,
      fun _ h => SampleReaches.exists_ge_of_lt hq hlt hi' h⟩⟩

/-- Settles O43: the window of such a pixel is the entry of v TAPS(k) times, of which SOLID
speaks. -/
theorem solidRowKeepsItsColour : Obligations.SolidRowKeepsItsColour := by
  intro c f k p kn b w line v hc hsolid hp hkn hfree _ _ hline hv hrow j _ hj
  have hwindow : ∀ n : Int, (newest (c.kind k) j : Int) - (c.kind k).taps + 1 ≤ n →
      n ≤ newest (c.kind k) j → stream (c.kind k) b w n = v := fun n hlo hhi =>
    stream_of_solid hrow (hj.imp_left fun hint => ⟨by omega, by omega⟩)
  rw [pixel, window_of_constant _ hwindow, lutAt_buildLut _ _ _ _ _ hv]
  exact hsolid k p kn v line _ hp hkn hfree hv hline
    (KindParams.phase_lt (Config.kind_valid hc k) j)

/-- Settles O30: one chunk is 1*IN(k) + 0 samples, and with an extra one 1*IN(k) + 1, or 2*1 + 0
when IN(k) = 1. -/
theorem boundaryWidths : Obligations.BoundaryWidths := by
  intro q hq
  have hin := KindParams.inChunk_pos hq
  have hle := KindParams.inChunk_le_sixteen hq
  have hone := chunks_extras_unique (c := 1) hin
  rw [Nat.one_mul, Nat.add_zero] at hone
  refine ⟨widthValid_eq_true.mpr (by omega), widthValid_eq_true.mpr (by omega), hone.1, hone.2,
    outputWidth_of_chunks hone.1, fun h2 => ?_, fun h1 => ?_⟩
  · have hextra := chunks_extras_unique (c := 1) (e := 1) h2
    rw [Nat.one_mul] at hextra
    exact ⟨hextra.1, hextra.2, outputWidth_of_chunks hextra.1⟩
  · have htwo := chunks_extras_unique (c := 2) hin
    rw [h1] at htwo ⊢
    exact ⟨htwo.1, htwo.2, outputWidth_of_chunks htwo.1⟩

end Sys2Proof.Machine

/-! SUPPORT. Faults and the frozen state: that every command answers, what an access that faults
does, what a frozen block answers, and what every run keeps (60_exceptions.md). -/

namespace Sys2Proof.Machine

open Sys2Proof.Statement

/-! ## Runs -/

/-- What every step of a machine answers and keeps, every run of it answers and keeps. -/
theorem run_keeps {M : Host.Core} {P : M.State → Prop}
    (hstep : ∀ s, P s → ∃ t, M.step s = .next t ∧ P t) (n : Nat) {s : M.State} (hs : P s) :
    ∃ t, M.run n s = .next t ∧ P t := by
  induction n generalizing s with
  | zero => exact ⟨s, rfl, hs⟩
  | succ n ih =>
    obtain ⟨u, hu, hPu⟩ := hstep s hs
    rw [Host.Core.run, hu]
    exact ih hPu

/-- A step from a state that meets the invariant answers a state that meets it. -/
theorem State.Inv.step {s : State} (h : s.Inv) : ∃ t, step s = .next t ∧ t.Inv := by
  obtain ⟨t, ht⟩ := step_answers h.config
  exact ⟨t, ht, stepKeepsInvariant s t h ht⟩

/-! ## Accesses that fault -/

/-- Code 2 is E_BUS alone (60_exceptions.md R241). -/
theorem FaultCause.code_eq_two {f : FaultCause} : f.code = 2 ↔ f = .bus := by
  cases f <;> decide

/-- No check of BLIT raises E_BUS (43_filter_blit.md R209). -/
theorem blitCheck_ne_bus (k : Kind) (w line : Nat) (s : State) :
    blitCheck k w line s ≠ some .bus := by
  rw [blitCheck_eq_ite]
  split_ifs <;> exact nofun

/-- A command that faults raises one fault with its own word, never E_BUS, and does nothing else
(60_exceptions.md R246). -/
theorem effect_eq_raise_of_fault {i : Instr} {s : State} (hf : s.latch.fault = false)
    (ht : (effect i s).latch.fault = true) :
    ∃ f ≠ FaultCause.bus, effect i s = raise f (encode i) s := by
  have hchanged : (effect i s).latch ≠ s.latch := fun h => by simp [h, hf] at ht
  obtain ⟨_, _, _, _, _, _, _, _, hlatch⟩ := onlyTheNamedCommandWrites i s _ (exec_of_live hf i)
  obtain ⟨_, ⟨k, w, rfl⟩ | ⟨k, w, line, rfl⟩⟩ := hlatch hchanged
  · obtain ⟨_, h⟩ | ⟨_, h⟩ := outwEffect_cases k w s
    · exact absurd (congrArg State.latch h) hchanged
    · exact ⟨.width, nofun, h⟩
  · obtain ⟨cause, hc, h⟩ | ⟨_, h⟩ := blitEffect_cases Config.filterModel k w line s
    · exact ⟨cause, fun hbus => blitCheck_ne_bus k w line s (hbus ▸ hc), h⟩
    · exact absurd (congrArg State.latch h) hchanged

/-- A write that faults in a live block raises E_BUS with its offset or another fault with its
value, and does nothing else (60_exceptions.md R246). -/
theorem hostWrite_eq_raise_of_fault {off : Word} {size : Nat} {v : Word} {s t : State}
    (hf : s.latch.fault = false) (h : hostWrite off size v s = .next t)
    (ht : t.latch.fault = true) :
    ∃ f info, t = raise f info s ∧ (f = .bus ∧ info = off ∨ f ≠ .bus ∧ info = v) := by
  obtain ⟨hfrozen, _⟩ | ⟨_, ⟨_, rfl⟩ | ⟨_, i, hd, hi⟩ | ⟨_, _, rfl⟩ | ⟨r, _, _, rfl⟩⟩ :=
    hostWrite_cases h
  · simp [hf] at hfrozen
  · exact ⟨.bus, off, rfl, .inl ⟨rfl, rfl⟩⟩
  · obtain ⟨_, hword⟩ := encodeOfDecode v i hd
    obtain rfl : t = effect i s := by simpa [hf] using exec_eq_next.mp hi
    obtain ⟨f, hne, heq⟩ := effect_eq_raise_of_fault hf ht
    exact ⟨f, v, hword ▸ heq, .inr ⟨hne, rfl⟩⟩
  · exact ⟨.illCmd, v, rfl, .inr ⟨nofun, rfl⟩⟩
  · simp [hf] at ht

/-- A read that faults in a live block is illegal: it raises E_BUS with its offset and returns 0
(40_host_access_and_nop.md R140). -/
theorem hostRead_eq_raise_of_fault {off : Word} {size : Nat} {s : State}
    (hf : s.latch.fault = false) (ht : (hostRead off size s).latch.fault = true) :
    hostRead off size s = (raise .bus off s).logRead 0 := by
  obtain ⟨r, _, h⟩ | ⟨_, h⟩ := hostRead_cases off size s
  · simp [h, hf] at ht
  · exact h

/-! ## The frozen block -/

/-- A read in a frozen block keeps the first fault (60_exceptions.md R248). -/
theorem hostRead_latch_of_frozen {s : State} (hf : s.latch.fault = true) (off : Word)
    (size : Nat) : (hostRead off size s).latch = s.latch := by
  obtain ⟨r, _, h⟩ | ⟨_, h⟩ := hostRead_cases off size s
  · rw [h, State.logRead_latch]
  · rw [h, State.logRead_latch, raise_of_frozen hf]

/-! ## The statements -/

/-- Settles O56: the invariant holds a legal configuration, on which a step answers, and every step
keeps it. -/
theorem everyRunKeepsInvariant : Obligations.EveryRunKeepsInvariant := fun _ n hs =>
  run_keeps (M := Sys2Proof.core) (P := State.Inv) (fun _ => State.Inv.step) n hs

/-- Settles O10, event by event: a frozen block takes no fault, so only reset touches the latch. -/
theorem firstFaultIsKept : Obligations.FirstFaultIsKept := by
  intro s t e rest hf hp ht
  obtain ⟨hc, _⟩ := step_cases ht
  rw [step_of_pending hc hp] at ht
  have hfrozen : (s.setPending rest).latch.fault = true := hf
  cases e with
  | read off size =>
    cases ht
    refine ⟨fun _ => hostRead_latch_of_frozen hfrozen off size, nofun, fun off' size' he hill => ?_,
      nofun⟩
    cases he
    rw [hostRead_of_regAt_none hill, raise_of_frozen hfrozen]
  | write off size v =>
    cases (hostWrite_of_frozen hfrozen off size v).symm.trans ht
    exact ⟨fun _ => rfl, fun _ _ _ _ => rfl, nofun, nofun⟩
  | rst =>
    cases ht
    exact ⟨fun h => absurd rfl h, nofun, nofun, fun _ => rfl⟩

/-- Settles O11: a faulting access is one raise in the state without it, whose cause tells what
FCMD holds. -/
theorem faultsArePrecise : Obligations.FaultsArePrecise := by
  intro s t e rest hn ht hfault
  have hlive := live_of_nextAccess hn
  rw [step_of_nextAccess hn] at ht
  cases e with
  | read off size =>
    cases ht
    have heq := hostRead_eq_raise_of_fault hlive hfault
    rw [raise_of_live hlive] at heq
    rw [heq]
    exact ⟨FaultCause.bus.code_range, .inr ⟨off, size, rfl, rfl, rfl, rfl⟩⟩
  | write off size v =>
    obtain ⟨f, info, rfl, hinfo⟩ := hostWrite_eq_raise_of_fault hlive ht hfault
    rw [raise_of_live hlive]
    refine ⟨f.code_range, .inl ⟨off, size, v, rfl, rfl, ?_⟩⟩
    exact hinfo.imp (.imp_left FaultCause.code_eq_two.mpr)
      (.imp_left (mt FaultCause.code_eq_two.mp))
  | rst =>
    cases ht
    cases hfault

/-- Settles O53: the state itself if the block is frozen, else the command's effect. -/
theorem everyCommandAnswers : Obligations.EveryCommandAnswers := by
  intro i s
  cases hf : s.latch.fault with
  | false => exact ⟨effect i s, exec_of_live hf i, nofun, fun _ => rfl⟩
  | true => exact ⟨s, exec_of_frozen hf i, fun _ => rfl, fun h => absurd h (by simp [hf])⟩

end Sys2Proof.Machine

/-! SUPPORT. The reset input (70_reset_and_hazards.md). -/

namespace Sys2Proof.Machine

/-- The `rst` event resets the block in the state without it, frozen or not
(70_reset_and_hazards.md R270). -/
theorem step_of_rst {s : State} (hc : s.cfg.Valid) {rest : List HostEvent}
    (hp : s.host.pending = .rst :: rest) : step s = .next (hardReset (s.setPending rest)) :=
  step_of_pending hc hp

/-- Settles O20: the step is `hardReset`, whose fields are those of `State.reset`, except DST, the
configuration and the host, which are those of the state it resets. -/
theorem resetFromAnyState : Obligations.ResetFromAnyState := by
  intro s rest hc hp
  refine ⟨hardReset (s.setPending rest), step_of_rst hc hp, hardReset_regs _, hardReset_ctx _,
    hardReset_ss _, fun i => ?_, hardReset_latch _, hardReset_clipped _, hardReset_outwRes _,
    fun a => ?_, hardReset_cfg _, hardReset_host _⟩
  · rw [hardReset_src]
    rfl
  · rw [hardReset_dst, State.setPending_dst]

end Sys2Proof.Machine
